-- ==== Sys2Proof/Word.lean ====
section
/-! DEFINITION. The word types of the machine (spec 00_scope.md R6, R7 TICK_BITS). -/

namespace Sys2Proof

/-- An 8-bit quantity: the data bus, A, B, DP, CC (R6). -/
abbrev Byte := BitVec 8

/-- A 16-bit quantity: the address bus, D, X, Y, U, S, PC (R6). -/
abbrev Word := BitVec 16

/-- The shared cycle counter and event deadlines: `TICK_BITS` = 32 bits, wrapping (R7, R45, D4). -/
abbrev Tick := BitVec 32

end Sys2Proof
end

