-- ==== Sys2Proof/Syntax.lean ====
section
/-! DEFINITION. The instructions: one constructor for each mnemonic of spec/opcode_table.json. Rows of the table
that share a mnemonic differ in the addressing mode (HCF and DISCARD: in the opcode byte); that difference is the
constructor's operand, so every row is one constructor at one form of its operand (log 18). -/

namespace Sys2Proof

/-- The opcode page an instruction stands on: without a prefix, after 0x10, after 0x11 (R110). -/
inductive Page where
  | page0 | page2 | page3
deriving DecidableEq, Repr

/-- The base register an indexed postbyte selects (R125). -/
inductive IdxReg where
  | x | y | u | s
deriving DecidableEq, Repr

/-- The forms of an indexed postbyte, in the order of R126's table. -/
inductive IdxMode where
  /-- `n,R` with a 5-bit offset. -/
  | off5 (n : BitVec 5)
  /-- `,R+` -/
  | inc1
  /-- `,R++` -/
  | inc2
  /-- `,-R` -/
  | dec1
  /-- `,--R` -/
  | dec2
  /-- `,R` -/
  | zero
  /-- `B,R` -/
  | accB
  /-- `A,R` -/
  | accA
  /-- `n,R` with an 8-bit offset. -/
  | off8 (n : Byte)
  /-- `n,R` with a 16-bit offset. -/
  | off16 (n : Word)
  /-- `D,R` -/
  | accD
  /-- `n,PCR` with an 8-bit offset. -/
  | pcr8 (n : Byte)
  /-- `n,PCR` with a 16-bit offset. -/
  | pcr16 (n : Word)
  /-- `[n]`: extended indirect. -/
  | extInd (n : Word)
deriving DecidableEq, Repr

/-- An indexed operand: the register field (kept for the forms that ignore it: `n,PCR` and `[n]`), the form, and the
indirection bit (R125 to R127). -/
structure Indexed where
  reg      : IdxReg
  mode     : IdxMode
  indirect : Bool
deriving DecidableEq, Repr

/-- A memory operand: direct (R123), indexed (R126) or extended (R124). -/
inductive MemOp where
  | direct (off : Byte)
  | indexed (x : Indexed)
  | extended (addr : Word)
deriving DecidableEq, Repr

/-- An 8-bit source operand (R268). -/
inductive Src8 where
  | imm (v : Byte)
  | mem (m : MemOp)
deriving DecidableEq, Repr

/-- A 16-bit source operand (R303). -/
inductive Src16 where
  | imm (v : Word)
  | mem (m : MemOp)
deriving DecidableEq, Repr

/-- A register code of a TFR/EXG postbyte (R140); the six codes that name no register are kept apart. -/
inductive TReg where
  | d | x | y | u | s | pc | a | b | cc | dp
  | undef6 | undef7 | undefC | undefD | undefE | undefF
deriving DecidableEq, Repr

/-- The three lockup opcodes of page 0 (R407). -/
inductive HcfOp where
  | op14 | op15 | opCD
deriving DecidableEq, Repr

/-- The two DISCARD opcodes (R292): 0x87 in the A column, 0xC7 in the B column. -/
inductive DiscardOp where
  | op87 | opC7
deriving DecidableEq, Repr

/-- Why bytes decode to no instruction. -/
inductive DecodeError where
  /-- The bytes end before the instruction does. -/
  | truncated
  /-- An indexed postbyte that names no form (R128). -/
  | undefinedPostbyte (pb : Byte)
deriving DecidableEq, Repr

/-- The instruction set. A name that ends in `Dup` is an illegal opcode the spec marks with a star and defines as a
copy of the documented one. -/
inductive Instr where
  -- 40_rmw8.md: memory forms
  | neg (m : MemOp)
  | negDup (m : MemOp)
  | negcom (m : MemOp)
  | com (m : MemOp)
  | lsr (m : MemOp)
  | lsrDup (m : MemOp)
  | ror (m : MemOp)
  | asr (m : MemOp)
  | asl (m : MemOp)
  | rol (m : MemOp)
  | dec (m : MemOp)
  | decDup (m : MemOp)
  | inc (m : MemOp)
  | tst (m : MemOp)
  | clr (m : MemOp)
  -- 40_rmw8.md: accumulator forms
  | nega
  | negb
  | negaDup
  | negbDup
  | negcoma
  | negcomb
  | coma
  | comb
  | lsra
  | lsrb
  | lsraDup
  | lsrbDup
  | rora
  | rorb
  | asra
  | asrb
  | asla
  | aslb
  | rola
  | rolb
  | deca
  | decb
  | decaDup
  | decbDup
  | inca
  | incb
  | tsta
  | tstb
  | clra
  | clrb
  | clraDup
  | clrbDup
  -- 41_acc8.md
  | suba (o : Src8)
  | subb (o : Src8)
  | cmpa (o : Src8)
  | cmpb (o : Src8)
  | sbca (o : Src8)
  | sbcb (o : Src8)
  | anda (o : Src8)
  | andb (o : Src8)
  | bita (o : Src8)
  | bitb (o : Src8)
  | lda (o : Src8)
  | ldb (o : Src8)
  | sta (m : MemOp)
  | stb (m : MemOp)
  | eora (o : Src8)
  | eorb (o : Src8)
  | adca (o : Src8)
  | adcb (o : Src8)
  | ora (o : Src8)
  | orb (o : Src8)
  | adda (o : Src8)
  | addb (o : Src8)
  | discard (op : DiscardOp) (v : Byte)
  -- 42_reg16.md
  | addd (o : Src16)
  | subd (o : Src16)
  | cmpd (o : Src16)
  | cmpx (o : Src16)
  | cmpy (o : Src16)
  | cmpu (o : Src16)
  | cmps (o : Src16)
  | ldd (o : Src16)
  | ldx (o : Src16)
  | ldy (o : Src16)
  | ldu (o : Src16)
  | lds (o : Src16)
  | std (m : MemOp)
  | stx (m : MemOp)
  | sty (m : MemOp)
  | stu (m : MemOp)
  | sts (m : MemOp)
  | stxImm
  | stuImm
  | leax (x : Indexed)
  | leay (x : Indexed)
  | leas (x : Indexed)
  | leau (x : Indexed)
  | abx
  | mul
  | sex
  | daa
  -- 43_transfer_stack.md
  | tfr (r1 r2 : TReg)
  | exg (r1 r2 : TReg)
  | pshs (p : Byte)
  | puls (p : Byte)
  | pshu (p : Byte)
  | pulu (p : Byte)
  | andcc (v : Byte)
  | orcc (v : Byte)
  | nop
  | nopDup
  | ccshift
  | andccDup (v : Byte)
  -- 44_control.md
  | bra (off : Byte)
  | brn (off : Byte)
  | bhi (off : Byte)
  | bls (off : Byte)
  | bcc (off : Byte)
  | bcs (off : Byte)
  | bne (off : Byte)
  | beq (off : Byte)
  | bvc (off : Byte)
  | bvs (off : Byte)
  | bpl (off : Byte)
  | bmi (off : Byte)
  | bge (off : Byte)
  | blt (off : Byte)
  | bgt (off : Byte)
  | ble (off : Byte)
  | lbra (off : Word)
  | lbsr (off : Word)
  | lbrn (off : Word)
  | lbhi (off : Word)
  | lbls (off : Word)
  | lbcc (off : Word)
  | lbcs (off : Word)
  | lbne (off : Word)
  | lbeq (off : Word)
  | lbvc (off : Word)
  | lbvs (off : Word)
  | lbpl (off : Word)
  | lbmi (off : Word)
  | lbge (off : Word)
  | lblt (off : Word)
  | lbgt (off : Word)
  | lble (off : Word)
  | bsr (off : Byte)
  | jmp (m : MemOp)
  | jsr (m : MemOp)
  | rts
  -- 45_system.md
  | swi
  | swi2
  | swi3
  | rti
  | cwai (v : Byte)
  | sync
  | resetIll
  | hcf (op : HcfOp)
  | page2Undefined (b : Byte)
  | page3Undefined (b : Byte)
  | page2Prefix
  | page3Prefix
deriving DecidableEq, Repr

/-- The page each instruction's opcode byte stands on (R113 to R115). -/
def Instr.page : Instr → Page
  | .neg _ | .negDup _ | .negcom _ | .com _ | .lsr _ | .lsrDup _ | .ror _ | .asr _ | .asl _ | .rol _ | .dec _
  | .decDup _ | .inc _ | .tst _ | .clr _ | .nega | .negb | .negaDup | .negbDup | .negcoma | .negcomb | .coma
  | .comb | .lsra | .lsrb | .lsraDup | .lsrbDup | .rora | .rorb | .asra | .asrb | .asla | .aslb | .rola | .rolb
  | .deca | .decb | .decaDup | .decbDup | .inca | .incb | .tsta | .tstb | .clra | .clrb | .clraDup | .clrbDup
  | .suba _ | .subb _ | .cmpa _ | .cmpb _ | .sbca _ | .sbcb _ | .anda _ | .andb _ | .bita _ | .bitb _ | .lda _
  | .ldb _ | .sta _ | .stb _ | .eora _ | .eorb _ | .adca _ | .adcb _ | .ora _ | .orb _ | .adda _ | .addb _
  | .discard _ _ | .addd _ | .subd _ | .cmpx _ | .ldd _ | .ldx _ | .ldu _ | .std _ | .stx _ | .stu _ | .stxImm
  | .stuImm | .leax _ | .leay _ | .leas _ | .leau _ | .abx | .mul | .sex | .daa | .tfr _ _ | .exg _ _ | .pshs _
  | .puls _ | .pshu _ | .pulu _ | .andcc _ | .orcc _ | .nop | .nopDup | .ccshift | .andccDup _ | .bra _ | .brn _
  | .bhi _ | .bls _ | .bcc _ | .bcs _ | .bne _ | .beq _ | .bvc _ | .bvs _ | .bpl _ | .bmi _ | .bge _ | .blt _
  | .bgt _ | .ble _ | .lbra _ | .lbsr _ | .bsr _ | .jmp _ | .jsr _ | .rts | .swi | .rti | .cwai _ | .sync
  | .resetIll | .hcf _ | .page2Prefix | .page3Prefix => .page0
  | .cmpd _ | .cmpy _ | .ldy _ | .lds _ | .sty _ | .sts _ | .lbrn _ | .lbhi _ | .lbls _ | .lbcc _ | .lbcs _
  | .lbne _ | .lbeq _ | .lbvc _ | .lbvs _ | .lbpl _ | .lbmi _ | .lbge _ | .lblt _ | .lbgt _ | .lble _ | .swi2
  | .page2Undefined _ => .page2
  | .cmpu _ | .cmps _ | .swi3 | .page3Undefined _ => .page3

end Sys2Proof
end

