-- ==== Sys2Proof/WellFormed.lean ====
section
/-! DEFINITION. Which terms of the syntax an encoding of spec 30_encoding.md stands for. -/

namespace Sys2Proof

/-- R126, R127: `n,R` with a 5-bit offset, `,R+` and `,-R` have no indirect variant; `[n]` is always indirect. -/
def Indexed.wf (x : Indexed) : Bool :=
  match x.mode with
  | .off5 _ | .inc1 | .dec1 => !x.indirect
  | .extInd _ => x.indirect
  | .inc2 | .dec2 | .zero | .accB | .accA | .off8 _ | .off16 _ | .accD | .pcr8 _ | .pcr16 _ => true

def MemOp.wf : MemOp → Bool
  | .direct _ => true
  | .indexed x => x.wf
  | .extended _ => true

def Src8.wf : Src8 → Bool
  | .imm _ => true
  | .mem m => m.wf

def Src16.wf : Src16 → Bool
  | .imm _ => true
  | .mem m => m.wf

/-- R114: the second bytes defined on page 2. -/
def definedPage2 : List Byte :=
  [0x21#8, 0x22#8, 0x23#8, 0x24#8, 0x25#8, 0x26#8, 0x27#8, 0x28#8, 0x29#8, 0x2A#8, 0x2B#8, 0x2C#8, 0x2D#8, 0x2E#8,
   0x2F#8, 0x3F#8, 0x83#8, 0x8C#8, 0x8E#8, 0x93#8, 0xA3#8, 0xB3#8, 0x9C#8, 0xAC#8, 0xBC#8, 0x9E#8, 0xAE#8, 0xBE#8,
   0x9F#8, 0xAF#8, 0xBF#8, 0xCE#8, 0xDE#8, 0xEE#8, 0xFE#8, 0xDF#8, 0xEF#8, 0xFF#8]

/-- R115: the second bytes defined on page 3. -/
def definedPage3 : List Byte :=
  [0x3F#8, 0x83#8, 0x8C#8, 0x93#8, 0xA3#8, 0xB3#8, 0x9C#8, 0xAC#8, 0xBC#8]

/-- An instruction is well-formed when its indexed operand is, and, for the undefined bytes of pages 2 and 3, when the
byte is indeed undefined on its page (R408). -/
def Instr.wf : Instr → Bool
  | .neg m => m.wf
  | .negDup m => m.wf
  | .negcom m => m.wf
  | .com m => m.wf
  | .lsr m => m.wf
  | .lsrDup m => m.wf
  | .ror m => m.wf
  | .asr m => m.wf
  | .asl m => m.wf
  | .rol m => m.wf
  | .dec m => m.wf
  | .decDup m => m.wf
  | .inc m => m.wf
  | .tst m => m.wf
  | .clr m => m.wf
  | .nega => true
  | .negb => true
  | .negaDup => true
  | .negbDup => true
  | .negcoma => true
  | .negcomb => true
  | .coma => true
  | .comb => true
  | .lsra => true
  | .lsrb => true
  | .lsraDup => true
  | .lsrbDup => true
  | .rora => true
  | .rorb => true
  | .asra => true
  | .asrb => true
  | .asla => true
  | .aslb => true
  | .rola => true
  | .rolb => true
  | .deca => true
  | .decb => true
  | .decaDup => true
  | .decbDup => true
  | .inca => true
  | .incb => true
  | .tsta => true
  | .tstb => true
  | .clra => true
  | .clrb => true
  | .clraDup => true
  | .clrbDup => true
  | .suba o => o.wf
  | .subb o => o.wf
  | .cmpa o => o.wf
  | .cmpb o => o.wf
  | .sbca o => o.wf
  | .sbcb o => o.wf
  | .anda o => o.wf
  | .andb o => o.wf
  | .bita o => o.wf
  | .bitb o => o.wf
  | .lda o => o.wf
  | .ldb o => o.wf
  | .sta m => m.wf
  | .stb m => m.wf
  | .eora o => o.wf
  | .eorb o => o.wf
  | .adca o => o.wf
  | .adcb o => o.wf
  | .ora o => o.wf
  | .orb o => o.wf
  | .adda o => o.wf
  | .addb o => o.wf
  | .discard _ _ => true
  | .addd o => o.wf
  | .subd o => o.wf
  | .cmpd o => o.wf
  | .cmpx o => o.wf
  | .cmpy o => o.wf
  | .cmpu o => o.wf
  | .cmps o => o.wf
  | .ldd o => o.wf
  | .ldx o => o.wf
  | .ldy o => o.wf
  | .ldu o => o.wf
  | .lds o => o.wf
  | .std m => m.wf
  | .stx m => m.wf
  | .sty m => m.wf
  | .stu m => m.wf
  | .sts m => m.wf
  | .stxImm => true
  | .stuImm => true
  | .leax x => x.wf
  | .leay x => x.wf
  | .leas x => x.wf
  | .leau x => x.wf
  | .abx => true
  | .mul => true
  | .sex => true
  | .daa => true
  | .tfr _ _ => true
  | .exg _ _ => true
  | .pshs _ => true
  | .puls _ => true
  | .pshu _ => true
  | .pulu _ => true
  | .andcc _ => true
  | .orcc _ => true
  | .nop => true
  | .nopDup => true
  | .ccshift => true
  | .andccDup _ => true
  | .bra _ => true
  | .brn _ => true
  | .bhi _ => true
  | .bls _ => true
  | .bcc _ => true
  | .bcs _ => true
  | .bne _ => true
  | .beq _ => true
  | .bvc _ => true
  | .bvs _ => true
  | .bpl _ => true
  | .bmi _ => true
  | .bge _ => true
  | .blt _ => true
  | .bgt _ => true
  | .ble _ => true
  | .lbra _ => true
  | .lbsr _ => true
  | .lbrn _ => true
  | .lbhi _ => true
  | .lbls _ => true
  | .lbcc _ => true
  | .lbcs _ => true
  | .lbne _ => true
  | .lbeq _ => true
  | .lbvc _ => true
  | .lbvs _ => true
  | .lbpl _ => true
  | .lbmi _ => true
  | .lbge _ => true
  | .lblt _ => true
  | .lbgt _ => true
  | .lble _ => true
  | .bsr _ => true
  | .jmp m => m.wf
  | .jsr m => m.wf
  | .rts => true
  | .swi => true
  | .swi2 => true
  | .swi3 => true
  | .rti => true
  | .cwai _ => true
  | .sync => true
  | .resetIll => true
  | .hcf _ => true
  | .page2Undefined b => !definedPage2.contains b
  | .page3Undefined b => !definedPage3.contains b
  | .page2Prefix => true
  | .page3Prefix => true

end Sys2Proof
end

