-- ==== Sys2Proof/Decode.lean ====
section
/-! DEFINITION. The decoder and the encoder (spec 30_encoding.md), and the byte-order and sign-extension helpers the
machine shares with them. -/

namespace Sys2Proof

/-! ### Bytes and words (R8, R83) -/

/-- `a:b`, the high byte first. -/
def joinBytes (hi lo : Byte) : Word := hi ++ lo

def hiByte (w : Word) : Byte := w.extractLsb' 8 8

def loByte (w : Word) : Byte := w.extractLsb' 0 8

def sext5 (n : BitVec 5) : Word := n.signExtend 16

def sext8 (n : Byte) : Word := n.signExtend 16

def zext8 (n : Byte) : Word := n.zeroExtend 16

/-! ### Register fields -/

/-- R125: postbyte bits 6..5. -/
def IdxReg.ofBits (r : BitVec 2) : IdxReg :=
  match r.toNat with
  | 0 => .x
  | 1 => .y
  | 2 => .u
  | _ => .s

def IdxReg.bits : IdxReg → BitVec 2
  | .x => 0#2
  | .y => 1#2
  | .u => 2#2
  | .s => 3#2

/-- R140: a nibble of a TFR/EXG postbyte. -/
def TReg.ofCode (c : BitVec 4) : TReg :=
  match c.toNat with
  | 0 => .d
  | 1 => .x
  | 2 => .y
  | 3 => .u
  | 4 => .s
  | 5 => .pc
  | 6 => .undef6
  | 7 => .undef7
  | 8 => .a
  | 9 => .b
  | 10 => .cc
  | 11 => .dp
  | 12 => .undefC
  | 13 => .undefD
  | 14 => .undefE
  | _ => .undefF

def TReg.code : TReg → BitVec 4
  | .d => 0x0#4
  | .x => 0x1#4
  | .y => 0x2#4
  | .u => 0x3#4
  | .s => 0x4#4
  | .pc => 0x5#4
  | .undef6 => 0x6#4
  | .undef7 => 0x7#4
  | .a => 0x8#4
  | .b => 0x9#4
  | .cc => 0xA#4
  | .dp => 0xB#4
  | .undefC => 0xC#4
  | .undefD => 0xD#4
  | .undefE => 0xE#4
  | .undefF => 0xF#4

/-! ### Indexed postbytes (R126 to R128) -/

/-- What a postbyte asks for after itself: nothing, an 8-bit offset, or a 16-bit offset. -/
inductive PbForm where
  | plain (m : IdxMode)
  | byte (f : Byte → IdxMode)
  | word (f : Word → IdxMode)

/-- The form a postbyte with bit 7 = 1 names, from its bits 3..0 and its indirection bit 4; `none` is R128's list. -/
def pbForm1 (ind : Bool) (low : BitVec 4) : Option PbForm :=
  match low.toNat with
  | 0 => if ind then none else some (.plain .inc1)
  | 1 => some (.plain .inc2)
  | 2 => if ind then none else some (.plain .dec1)
  | 3 => some (.plain .dec2)
  | 4 => some (.plain .zero)
  | 5 => some (.plain .accB)
  | 6 => some (.plain .accA)
  | 7 => none
  | 8 => some (.byte .off8)
  | 9 => some (.word .off16)
  | 10 => none
  | 11 => some (.plain .accD)
  | 12 => some (.byte .pcr8)
  | 13 => some (.word .pcr16)
  | 14 => none
  | _ => if ind then some (.word .extInd) else none

/-- The form a postbyte names, or none (R126, R128). -/
def pbForm (pb : Byte) : Option PbForm :=
  if pb.getLsbD 7 then pbForm1 (pb.getLsbD 4) (pb.extractLsb' 0 4)
  else some (.plain (.off5 (pb.extractLsb' 0 5)))

/-- The indirection bit: bit 4 of a postbyte with bit 7 = 1 (R127). -/
def pbIndirect (pb : Byte) : Bool := pb.getLsbD 7 && pb.getLsbD 4

/-- The register field, bits 6..5 (R125). -/
def pbReg (pb : Byte) : IdxReg := IdxReg.ofBits (pb.extractLsb' 5 2)

/-- How many offset bytes follow a postbyte (R111, R126); none after an undefined one, which is refused (R128). -/
def pbOffsetBytes (pb : Byte) : Nat :=
  match pbForm pb with
  | some (.byte _) => 1
  | some (.word _) => 2
  | some (.plain _) | none => 0

/-- An indexed operand from the bytes after the opcode. -/
def decodeIndexed : List Byte → Except DecodeError (Indexed × List Byte)
  | [] => .error .truncated
  | pb :: rest =>
    match pbForm pb, rest with
    | none, _ => .error (.undefinedPostbyte pb)
    | some (.plain m), rest => .ok (⟨pbReg pb, m, pbIndirect pb⟩, rest)
    | some (.byte f), n :: rest => .ok (⟨pbReg pb, f n, pbIndirect pb⟩, rest)
    | some (.word f), h :: l :: rest => .ok (⟨pbReg pb, f (joinBytes h l), pbIndirect pb⟩, rest)
    | some (.byte _), [] | some (.word _), [] | some (.word _), [_] => .error .truncated

/-! ### Opcode maps (R113 to R115) -/

/-- What follows an opcode byte, and the instruction it makes. -/
inductive Shape where
  /-- Nothing. -/
  | inh (i : Instr)
  /-- One operand byte: an immediate, a direct offset or a relative offset. -/
  | byte (f : Byte → Instr)
  /-- Two operand bytes, high byte first. -/
  | word (f : Word → Instr)
  /-- A register postbyte (R140, R141). -/
  | post (f : Byte → Instr)
  /-- An indexed postbyte and its offset bytes. -/
  | indexed (f : Indexed → Instr)

def dir (f : MemOp → Instr) : Shape := .byte fun d => f (.direct d)
def ext (f : MemOp → Instr) : Shape := .word fun e => f (.extended e)
def idx (f : MemOp → Instr) : Shape := .indexed fun x => f (.indexed x)
def imm8 (f : Src8 → Instr) : Shape := .byte fun v => f (.imm v)
def imm16 (f : Src16 → Instr) : Shape := .word fun v => f (.imm v)
def src8 (f : Src8 → Instr) (m : MemOp) : Instr := f (.mem m)
def src16 (f : Src16 → Instr) (m : MemOp) : Instr := f (.mem m)
/-- R140: bits 7..4 name the first register, bits 3..0 the second. -/
def pair (f : TReg → TReg → Instr) : Shape :=
  .post fun p => f (TReg.ofCode (p.extractLsb' 4 4)) (TReg.ofCode (p.extractLsb' 0 4))

/-- R113, row 0: opcodes 0x00 to 0x0F. -/
def page0Row0 : List Shape :=
  [dir .neg, dir .negDup, dir .negcom, dir .com,
   dir .lsr, dir .lsrDup, dir .ror, dir .asr,
   dir .asl, dir .rol, dir .dec, dir .decDup,
   dir .inc, dir .tst, dir .jmp, dir .clr]

/-- R113, row 1: opcodes 0x10 to 0x1F. -/
def page0Row1 : List Shape :=
  [.inh .page2Prefix, .inh .page3Prefix, .inh .nop, .inh .sync,
   .inh (.hcf .op14), .inh (.hcf .op15), .word .lbra, .word .lbsr,
   .inh .ccshift, .inh .daa, .byte .orcc, .inh .nopDup,
   .byte .andcc, .inh .sex, pair .exg, pair .tfr]

/-- R113, row 2: opcodes 0x20 to 0x2F. -/
def page0Row2 : List Shape :=
  [.byte .bra, .byte .brn, .byte .bhi, .byte .bls,
   .byte .bcc, .byte .bcs, .byte .bne, .byte .beq,
   .byte .bvc, .byte .bvs, .byte .bpl, .byte .bmi,
   .byte .bge, .byte .blt, .byte .bgt, .byte .ble]

/-- R113, row 3: opcodes 0x30 to 0x3F. -/
def page0Row3 : List Shape :=
  [.indexed .leax, .indexed .leay, .indexed .leas, .indexed .leau,
   .post .pshs, .post .puls, .post .pshu, .post .pulu,
   .byte .andccDup, .inh .rts, .inh .abx, .inh .rti,
   .byte .cwai, .inh .mul, .inh .resetIll, .inh .swi]

/-- R113, row 4: opcodes 0x40 to 0x4F. -/
def page0Row4 : List Shape :=
  [.inh .nega, .inh .negaDup, .inh .negcoma, .inh .coma,
   .inh .lsra, .inh .lsraDup, .inh .rora, .inh .asra,
   .inh .asla, .inh .rola, .inh .deca, .inh .decaDup,
   .inh .inca, .inh .tsta, .inh .clraDup, .inh .clra]

/-- R113, row 5: opcodes 0x50 to 0x5F. -/
def page0Row5 : List Shape :=
  [.inh .negb, .inh .negbDup, .inh .negcomb, .inh .comb,
   .inh .lsrb, .inh .lsrbDup, .inh .rorb, .inh .asrb,
   .inh .aslb, .inh .rolb, .inh .decb, .inh .decbDup,
   .inh .incb, .inh .tstb, .inh .clrbDup, .inh .clrb]

/-- R113, row 6: opcodes 0x60 to 0x6F. -/
def page0Row6 : List Shape :=
  [idx .neg, idx .negDup, idx .negcom, idx .com,
   idx .lsr, idx .lsrDup, idx .ror, idx .asr,
   idx .asl, idx .rol, idx .dec, idx .decDup,
   idx .inc, idx .tst, idx .jmp, idx .clr]

/-- R113, row 7: opcodes 0x70 to 0x7F. -/
def page0Row7 : List Shape :=
  [ext .neg, ext .negDup, ext .negcom, ext .com,
   ext .lsr, ext .lsrDup, ext .ror, ext .asr,
   ext .asl, ext .rol, ext .dec, ext .decDup,
   ext .inc, ext .tst, ext .jmp, ext .clr]

/-- R113, row 8: opcodes 0x80 to 0x8F. -/
def page0Row8 : List Shape :=
  [imm8 .suba, imm8 .cmpa, imm8 .sbca, imm16 .subd,
   imm8 .anda, imm8 .bita, imm8 .lda, .byte (.discard .op87),
   imm8 .eora, imm8 .adca, imm8 .ora, imm8 .adda,
   imm16 .cmpx, .byte .bsr, imm16 .ldx, .inh .stxImm]

/-- R113, row 9: opcodes 0x90 to 0x9F. -/
def page0Row9 : List Shape :=
  [dir (src8 .suba), dir (src8 .cmpa), dir (src8 .sbca), dir (src16 .subd),
   dir (src8 .anda), dir (src8 .bita), dir (src8 .lda), dir .sta,
   dir (src8 .eora), dir (src8 .adca), dir (src8 .ora), dir (src8 .adda),
   dir (src16 .cmpx), dir .jsr, dir (src16 .ldx), dir .stx]

/-- R113, row A: opcodes 0xA0 to 0xAF. -/
def page0RowA : List Shape :=
  [idx (src8 .suba), idx (src8 .cmpa), idx (src8 .sbca), idx (src16 .subd),
   idx (src8 .anda), idx (src8 .bita), idx (src8 .lda), idx .sta,
   idx (src8 .eora), idx (src8 .adca), idx (src8 .ora), idx (src8 .adda),
   idx (src16 .cmpx), idx .jsr, idx (src16 .ldx), idx .stx]

/-- R113, row B: opcodes 0xB0 to 0xBF. -/
def page0RowB : List Shape :=
  [ext (src8 .suba), ext (src8 .cmpa), ext (src8 .sbca), ext (src16 .subd),
   ext (src8 .anda), ext (src8 .bita), ext (src8 .lda), ext .sta,
   ext (src8 .eora), ext (src8 .adca), ext (src8 .ora), ext (src8 .adda),
   ext (src16 .cmpx), ext .jsr, ext (src16 .ldx), ext .stx]

/-- R113, row C: opcodes 0xC0 to 0xCF. -/
def page0RowC : List Shape :=
  [imm8 .subb, imm8 .cmpb, imm8 .sbcb, imm16 .addd,
   imm8 .andb, imm8 .bitb, imm8 .ldb, .byte (.discard .opC7),
   imm8 .eorb, imm8 .adcb, imm8 .orb, imm8 .addb,
   imm16 .ldd, .inh (.hcf .opCD), imm16 .ldu, .inh .stuImm]

/-- R113, row D: opcodes 0xD0 to 0xDF. -/
def page0RowD : List Shape :=
  [dir (src8 .subb), dir (src8 .cmpb), dir (src8 .sbcb), dir (src16 .addd),
   dir (src8 .andb), dir (src8 .bitb), dir (src8 .ldb), dir .stb,
   dir (src8 .eorb), dir (src8 .adcb), dir (src8 .orb), dir (src8 .addb),
   dir (src16 .ldd), dir .std, dir (src16 .ldu), dir .stu]

/-- R113, row E: opcodes 0xE0 to 0xEF. -/
def page0RowE : List Shape :=
  [idx (src8 .subb), idx (src8 .cmpb), idx (src8 .sbcb), idx (src16 .addd),
   idx (src8 .andb), idx (src8 .bitb), idx (src8 .ldb), idx .stb,
   idx (src8 .eorb), idx (src8 .adcb), idx (src8 .orb), idx (src8 .addb),
   idx (src16 .ldd), idx .std, idx (src16 .ldu), idx .stu]

/-- R113, row F: opcodes 0xF0 to 0xFF. -/
def page0RowF : List Shape :=
  [ext (src8 .subb), ext (src8 .cmpb), ext (src8 .sbcb), ext (src16 .addd),
   ext (src8 .andb), ext (src8 .bitb), ext (src8 .ldb), ext .stb,
   ext (src8 .eorb), ext (src8 .adcb), ext (src8 .orb), ext (src8 .addb),
   ext (src16 .ldd), ext .std, ext (src16 .ldu), ext .stu]

/-- R113: the page-0 map, one row for each high nibble. -/
def page0Map : List (List Shape) :=
  [page0Row0, page0Row1, page0Row2, page0Row3, page0Row4, page0Row5, page0Row6, page0Row7,
   page0Row8, page0Row9, page0RowA, page0RowB, page0RowC, page0RowD, page0RowE, page0RowF]

/-- R114: the bytes defined on page 2. -/
def page2Rows : List (Byte × Shape) :=
  [(0x21#8, .word .lbrn),
   (0x22#8, .word .lbhi),
   (0x23#8, .word .lbls),
   (0x24#8, .word .lbcc),
   (0x25#8, .word .lbcs),
   (0x26#8, .word .lbne),
   (0x27#8, .word .lbeq),
   (0x28#8, .word .lbvc),
   (0x29#8, .word .lbvs),
   (0x2A#8, .word .lbpl),
   (0x2B#8, .word .lbmi),
   (0x2C#8, .word .lbge),
   (0x2D#8, .word .lblt),
   (0x2E#8, .word .lbgt),
   (0x2F#8, .word .lble),
   (0x3F#8, .inh .swi2),
   (0x83#8, imm16 .cmpd),
   (0x8C#8, imm16 .cmpy),
   (0x8E#8, imm16 .ldy),
   (0x93#8, dir (src16 .cmpd)),
   (0x9C#8, dir (src16 .cmpy)),
   (0x9E#8, dir (src16 .ldy)),
   (0x9F#8, dir .sty),
   (0xA3#8, idx (src16 .cmpd)),
   (0xAC#8, idx (src16 .cmpy)),
   (0xAE#8, idx (src16 .ldy)),
   (0xAF#8, idx .sty),
   (0xB3#8, ext (src16 .cmpd)),
   (0xBC#8, ext (src16 .cmpy)),
   (0xBE#8, ext (src16 .ldy)),
   (0xBF#8, ext .sty),
   (0xCE#8, imm16 .lds),
   (0xDE#8, dir (src16 .lds)),
   (0xDF#8, dir .sts),
   (0xEE#8, idx (src16 .lds)),
   (0xEF#8, idx .sts),
   (0xFE#8, ext (src16 .lds)),
   (0xFF#8, ext .sts)]

/-- R115: the bytes defined on page 3. -/
def page3Rows : List (Byte × Shape) :=
  [(0x3F#8, .inh .swi3),
   (0x83#8, imm16 .cmpu),
   (0x8C#8, imm16 .cmps),
   (0x93#8, dir (src16 .cmpu)),
   (0x9C#8, dir (src16 .cmps)),
   (0xA3#8, idx (src16 .cmpu)),
   (0xAC#8, idx (src16 .cmps)),
   (0xB3#8, ext (src16 .cmpu)),
   (0xBC#8, ext (src16 .cmps))]

/-- The shape a byte names in a page's rows, if it is defined there. -/
def lookupShape (op : Byte) : List (Byte × Shape) → Option Shape
  | [] => none
  | (b, sh) :: rows => if op = b then some sh else lookupShape op rows

/-- The shape of an opcode byte on its page. Every byte has one: page 0 has 256 entries (R116), and an undefined byte
of page 2 or 3 is an instruction of its own (R408). -/
def shapeOf (pg : Page) (op : Byte) : Shape :=
  match pg with
  | .page0 => (page0Map.getD (op.toNat / 16) []).getD (op.toNat % 16) (.inh (.hcf .op14))
  | .page2 => (lookupShape op page2Rows).getD (.inh (.page2Undefined op))
  | .page3 => (lookupShape op page3Rows).getD (.inh (.page3Undefined op))

/-- The operand bytes of a shape, and the instruction with them. -/
def decodeShape : Shape → List Byte → Except DecodeError (Instr × List Byte)
  | .inh i, bs => .ok (i, bs)
  | .byte f, b :: bs => .ok (f b, bs)
  | .word f, h :: l :: bs => .ok (f (joinBytes h l), bs)
  | .post f, p :: bs => .ok (f p, bs)
  | .indexed f, bs =>
    match decodeIndexed bs with
    | .ok (x, rest) => .ok (f x, rest)
    | .error e => .error e
  | .byte _, [] | .word _, [] | .word _, [_] | .post _, [] => .error .truncated

/-- The decoder: the instruction that the bytes from an opcode byte of a page on stand for, and the bytes after it.
Total on any bytes; it rejects by name (R111, R128). -/
def decode (pg : Page) : List Byte → Except DecodeError (Instr × List Byte)
  | [] => .error .truncated
  | op :: bs => decodeShape (shapeOf pg op) bs

/-! ### The encoder -/

/-- A postbyte `1rrimmmm`. -/
def postbyte1 (r : IdxReg) (ind : Bool) (low : BitVec 4) : Byte :=
  1#1 ++ r.bits ++ BitVec.ofBool ind ++ low

/-- R126: the postbyte of an indexed operand and its offset bytes. -/
def encIndexed (x : Indexed) : List Byte :=
  match x.mode with
  | .off5 n => [0#1 ++ x.reg.bits ++ n]
  | .inc1 => [postbyte1 x.reg x.indirect 0x0#4]
  | .inc2 => [postbyte1 x.reg x.indirect 0x1#4]
  | .dec1 => [postbyte1 x.reg x.indirect 0x2#4]
  | .dec2 => [postbyte1 x.reg x.indirect 0x3#4]
  | .zero => [postbyte1 x.reg x.indirect 0x4#4]
  | .accB => [postbyte1 x.reg x.indirect 0x5#4]
  | .accA => [postbyte1 x.reg x.indirect 0x6#4]
  | .off8 n => [postbyte1 x.reg x.indirect 0x8#4, n]
  | .off16 n => [postbyte1 x.reg x.indirect 0x9#4, hiByte n, loByte n]
  | .accD => [postbyte1 x.reg x.indirect 0xB#4]
  | .pcr8 n => [postbyte1 x.reg x.indirect 0xC#4, n]
  | .pcr16 n => [postbyte1 x.reg x.indirect 0xD#4, hiByte n, loByte n]
  | .extInd n => [postbyte1 x.reg x.indirect 0xF#4, hiByte n, loByte n]

def encMem (d x e : Byte) : MemOp → List Byte
  | .direct off => [d, off]
  | .indexed i => x :: encIndexed i
  | .extended a => [e, hiByte a, loByte a]

def encSrc8 (i d x e : Byte) : Src8 → List Byte
  | .imm v => [i, v]
  | .mem m => encMem d x e m

def encSrc16 (i d x e : Byte) : Src16 → List Byte
  | .imm v => [i, hiByte v, loByte v]
  | .mem m => encMem d x e m

/-- The bytes of an instruction from its opcode byte on, without a page prefix. -/
def encodeOp : Instr → List Byte
  | .neg m => encMem 0x00#8 0x60#8 0x70#8 m
  | .negDup m => encMem 0x01#8 0x61#8 0x71#8 m
  | .negcom m => encMem 0x02#8 0x62#8 0x72#8 m
  | .com m => encMem 0x03#8 0x63#8 0x73#8 m
  | .lsr m => encMem 0x04#8 0x64#8 0x74#8 m
  | .lsrDup m => encMem 0x05#8 0x65#8 0x75#8 m
  | .ror m => encMem 0x06#8 0x66#8 0x76#8 m
  | .asr m => encMem 0x07#8 0x67#8 0x77#8 m
  | .asl m => encMem 0x08#8 0x68#8 0x78#8 m
  | .rol m => encMem 0x09#8 0x69#8 0x79#8 m
  | .dec m => encMem 0x0A#8 0x6A#8 0x7A#8 m
  | .decDup m => encMem 0x0B#8 0x6B#8 0x7B#8 m
  | .inc m => encMem 0x0C#8 0x6C#8 0x7C#8 m
  | .tst m => encMem 0x0D#8 0x6D#8 0x7D#8 m
  | .clr m => encMem 0x0F#8 0x6F#8 0x7F#8 m
  | .nega => [0x40#8]
  | .negb => [0x50#8]
  | .negaDup => [0x41#8]
  | .negbDup => [0x51#8]
  | .negcoma => [0x42#8]
  | .negcomb => [0x52#8]
  | .coma => [0x43#8]
  | .comb => [0x53#8]
  | .lsra => [0x44#8]
  | .lsrb => [0x54#8]
  | .lsraDup => [0x45#8]
  | .lsrbDup => [0x55#8]
  | .rora => [0x46#8]
  | .rorb => [0x56#8]
  | .asra => [0x47#8]
  | .asrb => [0x57#8]
  | .asla => [0x48#8]
  | .aslb => [0x58#8]
  | .rola => [0x49#8]
  | .rolb => [0x59#8]
  | .deca => [0x4A#8]
  | .decb => [0x5A#8]
  | .decaDup => [0x4B#8]
  | .decbDup => [0x5B#8]
  | .inca => [0x4C#8]
  | .incb => [0x5C#8]
  | .tsta => [0x4D#8]
  | .tstb => [0x5D#8]
  | .clra => [0x4F#8]
  | .clrb => [0x5F#8]
  | .clraDup => [0x4E#8]
  | .clrbDup => [0x5E#8]
  | .suba o => encSrc8 0x80#8 0x90#8 0xA0#8 0xB0#8 o
  | .subb o => encSrc8 0xC0#8 0xD0#8 0xE0#8 0xF0#8 o
  | .cmpa o => encSrc8 0x81#8 0x91#8 0xA1#8 0xB1#8 o
  | .cmpb o => encSrc8 0xC1#8 0xD1#8 0xE1#8 0xF1#8 o
  | .sbca o => encSrc8 0x82#8 0x92#8 0xA2#8 0xB2#8 o
  | .sbcb o => encSrc8 0xC2#8 0xD2#8 0xE2#8 0xF2#8 o
  | .anda o => encSrc8 0x84#8 0x94#8 0xA4#8 0xB4#8 o
  | .andb o => encSrc8 0xC4#8 0xD4#8 0xE4#8 0xF4#8 o
  | .bita o => encSrc8 0x85#8 0x95#8 0xA5#8 0xB5#8 o
  | .bitb o => encSrc8 0xC5#8 0xD5#8 0xE5#8 0xF5#8 o
  | .lda o => encSrc8 0x86#8 0x96#8 0xA6#8 0xB6#8 o
  | .ldb o => encSrc8 0xC6#8 0xD6#8 0xE6#8 0xF6#8 o
  | .sta m => encMem 0x97#8 0xA7#8 0xB7#8 m
  | .stb m => encMem 0xD7#8 0xE7#8 0xF7#8 m
  | .eora o => encSrc8 0x88#8 0x98#8 0xA8#8 0xB8#8 o
  | .eorb o => encSrc8 0xC8#8 0xD8#8 0xE8#8 0xF8#8 o
  | .adca o => encSrc8 0x89#8 0x99#8 0xA9#8 0xB9#8 o
  | .adcb o => encSrc8 0xC9#8 0xD9#8 0xE9#8 0xF9#8 o
  | .ora o => encSrc8 0x8A#8 0x9A#8 0xAA#8 0xBA#8 o
  | .orb o => encSrc8 0xCA#8 0xDA#8 0xEA#8 0xFA#8 o
  | .adda o => encSrc8 0x8B#8 0x9B#8 0xAB#8 0xBB#8 o
  | .addb o => encSrc8 0xCB#8 0xDB#8 0xEB#8 0xFB#8 o
  | .discard .op87 v => [0x87#8, v]
  | .discard .opC7 v => [0xC7#8, v]
  | .addd o => encSrc16 0xC3#8 0xD3#8 0xE3#8 0xF3#8 o
  | .subd o => encSrc16 0x83#8 0x93#8 0xA3#8 0xB3#8 o
  | .cmpd o => encSrc16 0x83#8 0x93#8 0xA3#8 0xB3#8 o
  | .cmpx o => encSrc16 0x8C#8 0x9C#8 0xAC#8 0xBC#8 o
  | .cmpy o => encSrc16 0x8C#8 0x9C#8 0xAC#8 0xBC#8 o
  | .cmpu o => encSrc16 0x83#8 0x93#8 0xA3#8 0xB3#8 o
  | .cmps o => encSrc16 0x8C#8 0x9C#8 0xAC#8 0xBC#8 o
  | .ldd o => encSrc16 0xCC#8 0xDC#8 0xEC#8 0xFC#8 o
  | .ldx o => encSrc16 0x8E#8 0x9E#8 0xAE#8 0xBE#8 o
  | .ldy o => encSrc16 0x8E#8 0x9E#8 0xAE#8 0xBE#8 o
  | .ldu o => encSrc16 0xCE#8 0xDE#8 0xEE#8 0xFE#8 o
  | .lds o => encSrc16 0xCE#8 0xDE#8 0xEE#8 0xFE#8 o
  | .std m => encMem 0xDD#8 0xED#8 0xFD#8 m
  | .stx m => encMem 0x9F#8 0xAF#8 0xBF#8 m
  | .sty m => encMem 0x9F#8 0xAF#8 0xBF#8 m
  | .stu m => encMem 0xDF#8 0xEF#8 0xFF#8 m
  | .sts m => encMem 0xDF#8 0xEF#8 0xFF#8 m
  | .stxImm => [0x8F#8]
  | .stuImm => [0xCF#8]
  | .leax x => 0x30#8 :: encIndexed x
  | .leay x => 0x31#8 :: encIndexed x
  | .leas x => 0x32#8 :: encIndexed x
  | .leau x => 0x33#8 :: encIndexed x
  | .abx => [0x3A#8]
  | .mul => [0x3D#8]
  | .sex => [0x1D#8]
  | .daa => [0x19#8]
  | .tfr r1 r2 => [0x1F#8, r1.code ++ r2.code]
  | .exg r1 r2 => [0x1E#8, r1.code ++ r2.code]
  | .pshs p => [0x34#8, p]
  | .puls p => [0x35#8, p]
  | .pshu p => [0x36#8, p]
  | .pulu p => [0x37#8, p]
  | .andcc v => [0x1C#8, v]
  | .orcc v => [0x1A#8, v]
  | .nop => [0x12#8]
  | .nopDup => [0x1B#8]
  | .ccshift => [0x18#8]
  | .andccDup v => [0x38#8, v]
  | .bra off => [0x20#8, off]
  | .brn off => [0x21#8, off]
  | .bhi off => [0x22#8, off]
  | .bls off => [0x23#8, off]
  | .bcc off => [0x24#8, off]
  | .bcs off => [0x25#8, off]
  | .bne off => [0x26#8, off]
  | .beq off => [0x27#8, off]
  | .bvc off => [0x28#8, off]
  | .bvs off => [0x29#8, off]
  | .bpl off => [0x2A#8, off]
  | .bmi off => [0x2B#8, off]
  | .bge off => [0x2C#8, off]
  | .blt off => [0x2D#8, off]
  | .bgt off => [0x2E#8, off]
  | .ble off => [0x2F#8, off]
  | .lbra off => [0x16#8, hiByte off, loByte off]
  | .lbsr off => [0x17#8, hiByte off, loByte off]
  | .lbrn off => [0x21#8, hiByte off, loByte off]
  | .lbhi off => [0x22#8, hiByte off, loByte off]
  | .lbls off => [0x23#8, hiByte off, loByte off]
  | .lbcc off => [0x24#8, hiByte off, loByte off]
  | .lbcs off => [0x25#8, hiByte off, loByte off]
  | .lbne off => [0x26#8, hiByte off, loByte off]
  | .lbeq off => [0x27#8, hiByte off, loByte off]
  | .lbvc off => [0x28#8, hiByte off, loByte off]
  | .lbvs off => [0x29#8, hiByte off, loByte off]
  | .lbpl off => [0x2A#8, hiByte off, loByte off]
  | .lbmi off => [0x2B#8, hiByte off, loByte off]
  | .lbge off => [0x2C#8, hiByte off, loByte off]
  | .lblt off => [0x2D#8, hiByte off, loByte off]
  | .lbgt off => [0x2E#8, hiByte off, loByte off]
  | .lble off => [0x2F#8, hiByte off, loByte off]
  | .bsr off => [0x8D#8, off]
  | .jmp m => encMem 0x0E#8 0x6E#8 0x7E#8 m
  | .jsr m => encMem 0x9D#8 0xAD#8 0xBD#8 m
  | .rts => [0x39#8]
  | .swi => [0x3F#8]
  | .swi2 => [0x3F#8]
  | .swi3 => [0x3F#8]
  | .rti => [0x3B#8]
  | .cwai v => [0x3C#8, v]
  | .sync => [0x13#8]
  | .resetIll => [0x3E#8]
  | .hcf .op14 => [0x14#8]
  | .hcf .op15 => [0x15#8]
  | .hcf .opCD => [0xCD#8]
  | .page2Undefined b => [b]
  | .page3Undefined b => [b]
  | .page2Prefix => [0x10#8]
  | .page3Prefix => [0x11#8]

/-- The prefix byte of a page (R110). -/
def Page.prefixBytes : Page → List Byte
  | .page0 => []
  | .page2 => [0x10#8]
  | .page3 => [0x11#8]

/-- The bytes of an instruction, prefix included. -/
def encode (i : Instr) : List Byte := i.page.prefixBytes ++ encodeOp i

/-! ### Words of spec/opcode_table.json -/

/-- Byte `k` of a table word. -/
def tableByte (nbits w k : Nat) : Byte := BitVec.ofNat 8 (w % 2 ^ nbits / 2 ^ (8 * k))

/-- A byte that selects page 2 or page 3 (R110). -/
def prefixPage (b : Byte) : Option Page :=
  if b = 0x10#8 then some .page2 else if b = 0x11#8 then some .page3 else none

/-- The page and the bytes (from the opcode byte on) of an instruction whose table word is `w`. Bit 0 is the least
significant bit of the first byte, except that the table writes the two bytes of a page-2 or page-3 row as one number
with the prefix in bits 15..8 (log 17); a row of one byte that is a prefix is the prefix itself. -/
def tableBytes (nbits w : Nat) : Page × List Byte :=
  let b := tableByte nbits w
  if nbits < 16 then (.page0, [b 0, 0#8, 0#8, 0#8, 0#8])
  else match prefixPage (b 1), prefixPage (b 0) with
    | some pg, _ => (pg, [b 0, b 2, b 3, b 4])
    | none, some pg => (pg, [b 1, b 2, b 3, b 4])
    | none, none => (.page0, [b 0, b 1, b 2, b 3, b 4])

/-- The instruction the decoder reads from a word numbered as spec/opcode_table.json numbers it. -/
def decodeTableWord (nbits w : Nat) : Option Instr :=
  match decode (tableBytes nbits w).1 (tableBytes nbits w).2 with
  | .ok (i, _) => some i
  | .error _ => none

end Sys2Proof
end

