-- ==== Sys2Proof/Machine/Flags.lean ====
section
/-! DEFINITION. The condition codes (spec 10_state.md R37) and every flag computation: the primitives of 40_rmw8.md
R200 to R211, 41_acc8.md R260 to R267, 42_reg16.md R300 to R302 and R327 to R329, and the branch conditions
(44_control.md R360). A primitive takes CC and its operands and answers its result and the new CC. -/

namespace Sys2Proof.Machine

/-- The bits of CC (R37). -/
inductive CcBit where
  | e | f | h | i | n | z | v | c
deriving DecidableEq, Repr

/-- The position of a bit. -/
def CcBit.pos : CcBit → Nat
  | .e => 7
  | .f => 6
  | .h => 5
  | .i => 4
  | .n => 3
  | .z => 2
  | .v => 1
  | .c => 0

/-- Read a bit of CC. -/
def getCc (k : CcBit) (cc : Byte) : Bool := cc.getLsbD k.pos

/-- Write a bit of CC; the others keep their values (R13). -/
def setCc (k : CcBit) (v : Bool) (cc : Byte) : Byte :=
  if v then cc ||| (1#8 <<< k.pos) else cc &&& ~~~(1#8 <<< k.pos)

/-- R13: N and Z of an 8-bit result. -/
def setNz8 (r cc : Byte) : Byte := setCc .z (r == 0#8) (setCc .n (r.getLsbD 7) cc)

/-- R13: N and Z of a 16-bit result. -/
def setNz16 (r : Word) (cc : Byte) : Byte := setCc .z (r == 0#16) (setCc .n (r.getLsbD 15) cc)

def setVc (v c : Bool) (cc : Byte) : Byte := setCc .c c (setCc .v v cc)

/-- The carry as a number. -/
def carry (cc : Byte) : Nat := (getCc .c cc).toNat

namespace Flags

/-! ### One operand (R200 to R211) -/

def opNeg (cc v : Byte) : Byte × Byte :=
  let r := 0#8 - v
  (r, setVc (v == 0x80#8) (v != 0#8) (setNz8 r cc))

def opCom (cc v : Byte) : Byte × Byte :=
  let r := ~~~v
  (r, setVc false true (setNz8 r cc))

/-- N is clear because bit 7 of the result is. -/
def opLsr (cc v : Byte) : Byte × Byte :=
  let r := v >>> 1
  (r, setCc .c (v.getLsbD 0) (setNz8 r cc))

def opRor (cc v : Byte) : Byte × Byte :=
  let r := (v >>> 1) ||| (if getCc .c cc then 0x80#8 else 0#8)
  (r, setCc .c (v.getLsbD 0) (setNz8 r cc))

def opAsr (cc v : Byte) : Byte × Byte :=
  let r := (v &&& 0x80#8) ||| (v >>> 1)
  (r, setCc .c (v.getLsbD 0) (setNz8 r cc))

def opAsl (cc v : Byte) : Byte × Byte :=
  let r := v <<< 1
  (r, setVc (v.getLsbD 7 ^^ v.getLsbD 6) (v.getLsbD 7) (setNz8 r cc))

def opRol (cc v : Byte) : Byte × Byte :=
  let r := (v <<< 1) ||| (if getCc .c cc then 1#8 else 0#8)
  (r, setVc (v.getLsbD 7 ^^ v.getLsbD 6) (v.getLsbD 7) (setNz8 r cc))

def opDec (cc v : Byte) : Byte × Byte :=
  let r := v - 1#8
  (r, setCc .v (v == 0x80#8) (setNz8 r cc))

def opInc (cc v : Byte) : Byte × Byte :=
  let r := v + 1#8
  (r, setCc .v (v == 0x7F#8) (setNz8 r cc))

/-- The value itself is answered; the instructions store no result. -/
def opTst (cc v : Byte) : Byte × Byte := (v, setCc .v false (setNz8 v cc))

def opClr (cc _v : Byte) : Byte × Byte := (0#8, setVc false false (setNz8 0#8 cc))

/-- R211: negate when C is clear, complement when it is set. -/
def opNegcom (cc v : Byte) : Byte × Byte := if getCc .c cc then opCom cc v else opNeg cc v

/-! ### Two 8-bit operands (R260 to R267) -/

def opSub8 (cc a b : Byte) : Byte × Byte :=
  let r := a - b
  (r, setVc (((a ^^^ b) &&& (a ^^^ r)).getLsbD 7) (a.toNat < b.toNat) (setNz8 r cc))

def opSbc8 (cc a b : Byte) : Byte × Byte :=
  let r := a - b - BitVec.ofNat 8 (carry cc)
  (r, setVc (((a ^^^ b) &&& (a ^^^ r)).getLsbD 7) (a.toNat < b.toNat + carry cc) (setNz8 r cc))

def opAdd8 (cc a b : Byte) : Byte × Byte :=
  let r := a + b
  (r, setVc (((a ^^^ r) &&& (b ^^^ r)).getLsbD 7) (0xFF < a.toNat + b.toNat)
    (setNz8 r (setCc .h ((a ^^^ b ^^^ r).getLsbD 4) cc)))

def opAdc8 (cc a b : Byte) : Byte × Byte :=
  let r := a + b + BitVec.ofNat 8 (carry cc)
  (r, setVc (((a ^^^ r) &&& (b ^^^ r)).getLsbD 7) (0xFF < a.toNat + b.toNat + carry cc)
    (setNz8 r (setCc .h ((a ^^^ b ^^^ r).getLsbD 4) cc)))

/-- R267, the flag rule of 8-bit loads and stores. -/
def opLd8 (cc v : Byte) : Byte × Byte := (v, setCc .v false (setNz8 v cc))

def opAnd8 (cc a b : Byte) : Byte × Byte := opLd8 cc (a &&& b)
def opOr8 (cc a b : Byte) : Byte × Byte := opLd8 cc (a ||| b)
def opEor8 (cc a b : Byte) : Byte × Byte := opLd8 cc (a ^^^ b)

/-! ### 16-bit operands (R300 to R302) -/

def opAdd16 (cc : Byte) (a b : Word) : Word × Byte :=
  let r := a + b
  (r, setVc (((a ^^^ r) &&& (b ^^^ r)).getLsbD 15) (0xFFFF < a.toNat + b.toNat) (setNz16 r cc))

def opSub16 (cc : Byte) (a b : Word) : Word × Byte :=
  let r := a - b
  (r, setVc (((a ^^^ b) &&& (a ^^^ r)).getLsbD 15) (a.toNat < b.toNat) (setNz16 r cc))

def opLd16 (cc : Byte) (v : Word) : Word × Byte := (v, setCc .v false (setNz16 v cc))

/-! ### MUL, SEX, DAA (R327 to R329) -/

def opMul (cc a b : Byte) : Word × Byte :=
  let r := zext8 a * zext8 b
  (r, setCc .c (r.getLsbD 7) (setCc .z (r == 0#16) cc))

/-- The result is the new D. -/
def opSex (cc b : Byte) : Word × Byte :=
  let r := joinBytes (if b.getLsbD 7 then 0xFF#8 else 0x00#8) b
  (r, setNz16 r cc)

/-- The correction DAA adds to A. -/
def daaCorrection (cc a : Byte) : Nat :=
  let lsn := a.toNat % 16
  let msn := a.toNat / 16
  (if getCc .h cc || 9 < lsn then 0x06 else 0) +
    (if getCc .c cc || 9 < msn || (8 < msn && 9 < lsn) then 0x60 else 0)

/-- C is set by a carry out of bit 7 and never cleared. -/
def opDaa (cc a : Byte) : Byte × Byte :=
  let t := a.toNat + daaCorrection cc a
  let r := BitVec.ofNat 8 t
  (r, setCc .c (getCc .c cc || 0xFF < t) (setCc .v false (setNz8 r cc)))

/-- R354: CC shifted left, of which H and Z are kept: Z is the old V (log 23). -/
def ccShift (cc : Byte) : Byte := (cc <<< 1) &&& 0x24#8

/-- R292: the flags DISCARD and, under `AS_SPECIFIED`, the illegal immediate stores (R321) leave. -/
def discardCc (cc : Byte) : Byte := setCc .v false (setCc .z false (setCc .n true cc))

end Flags

/-! ### Branch conditions (R360) -/

/-- The sixteen conditions, in the order of their codes. -/
inductive Cond where
  | always | never | hi | ls | cc | cs | ne | eq | vc | vs | pl | mi | ge | lt | gt | le
deriving DecidableEq, Repr

/-- `cond(c)` on CC: the last column of R360. -/
def Cond.holds (c : Cond) (cc : Byte) : Bool :=
  let nv := getCc .n cc ^^ getCc .v cc
  match c with
  | .always => true
  | .never => false
  | .hi => !getCc .c cc && !getCc .z cc
  | .ls => getCc .c cc || getCc .z cc
  | .cc => !getCc .c cc
  | .cs => getCc .c cc
  | .ne => !getCc .z cc
  | .eq => getCc .z cc
  | .vc => !getCc .v cc
  | .vs => getCc .v cc
  | .pl => !getCc .n cc
  | .mi => getCc .n cc
  | .ge => !nv
  | .lt => nv
  | .gt => !getCc .z cc && !nv
  | .le => getCc .z cc || nv

end Sys2Proof.Machine
end

