-- ==== Sys2Proof/Config.lean ====
section
/-! DEFINITION. What is fixed for the machine (spec 00_scope.md R7), the types of the parameters a machine
carries, the values the model names where the spec gives none, and the free value of the event scheduler. -/

namespace Sys2Proof

/-- R7 `PAGE23_UNDEFINED`: the outcome of a byte that is not defined on page 2 or 3 (R408, D13). -/
inductive Page23Undefined where
  | hcf | refuse
deriving DecidableEq, Repr

/-- R7 `ILLEGAL_UNCERTAIN`: the treatment of the page-0 opcodes 0x38, 0x8F, 0xCF (R321, R355, D14). -/
inductive IllegalUncertain where
  | refuse | asSpecified
deriving DecidableEq, Repr

/-- R7 `TFR_UNDEFINED`: TFR/EXG with mixed register sizes or an undefined register code (R340 to R344, D23). -/
inductive TfrUndefined where
  | refuse | asXroar
deriving DecidableEq, Repr

/-- The parameters of R7 with more than one value the spec describes. "A model may take any of them as an argument
instead of fixing it": the machine carries them, and no step changes them. -/
structure Params where
  page23Undefined  : Page23Undefined
  illegalUncertain : IllegalUncertain
  tfrUndefined     : TfrUndefined
  syncWakeOnMasked : Bool
deriving DecidableEq, Repr

/-- Every parameter at the value R7 decides. -/
def Config.decidedParams : Params :=
  { page23Undefined := .hcf, illegalUncertain := .refuse, tfrUndefined := .refuse, syncWakeOnMasked := false }

/-- The parameters of `State.reset`. DESIGN CHOICE (log 6): where R7 decides `REFUSE` and the spec gives an effect as
the parameter's other value, the effect is taken, so that no instruction stops for want of it; the rest is as R7
decides. Unsafe: the spec gives those effects with low or medium confidence. -/
def Config.resetParams : Params :=
  { page23Undefined := .hcf, illegalUncertain := .asSpecified, tfrUndefined := .asXroar, syncWakeOnMasked := false }

/-- R7 `HAS_EXTRA_INSTRUCTIONS` = false: the MC6809 instruction set only (R3, D1). -/
def Config.hasExtraInstructions : Bool := false

/-- R7 `FILLER_ADDR`: the address driven on a cycle without a valid memory access (R10, R82, D5). -/
def Config.fillerAddr : Word := 0xFFFF#16

/-- What an address that memory does not list reads as. DESIGN CHOICE (log 5), unsafe: the spec gives no contents
(R81, R87). -/
def Config.memFill : Byte := 0x00#8

/-- A and B after reset. DESIGN CHOICE (log 1), unsafe: the spec gives none (R52, R600). -/
def Config.resetByte : Byte := 0x00#8

/-- X, Y, U, S (log 1) and, before the reset vector is fetched, PC (log 2) after reset. DESIGN CHOICE, unsafe:
the spec gives none (R52, R600, R604). -/
def Config.resetWord : Word := 0x0000#16

/-- CC after reset: F and I set (R52); E, H, N, Z, V, C clear, a DESIGN CHOICE (log 1), unsafe. -/
def Config.resetCc : Byte := 0x50#8

/-- The deadline an event holds between `init` and its owner's first write of it (R550: "holds no value"): a FREE
VALUE, one for each number drawn (log 11). -/
opaque Config.freeTick : Nat → Tick

/-- Vector addresses (R87, "bit-exact, fixed addresses"). -/
def Config.vecReset : Word := 0xFFFE#16
def Config.vecNmi   : Word := 0xFFFC#16
def Config.vecSwi   : Word := 0xFFFA#16
def Config.vecIrq   : Word := 0xFFF8#16
def Config.vecFirq  : Word := 0xFFF6#16
def Config.vecSwi2  : Word := 0xFFF4#16
def Config.vecSwi3  : Word := 0xFFF2#16

end Sys2Proof
end

