-- ==== Sys2Proof/Machine/State.lean ====
section
/-! DEFINITION. What the machine holds (spec 10_state.md), the reasons a step can stop, the moves of the host
(60_exceptions.md R560), and the machine right after reset (R52, R600). -/

namespace Sys2Proof.Machine

/-- Why the machine stops with a fault. No instruction of the CPU raises one (R511): each is a precondition of the
contract broken by the host (`fault(reason)` of R12), and the last is a state no run reaches. -/
inductive Fault where
  /-- R551: an event is queued while it is queued. Raised by the host move `queue`. Safe. -/
  | doubleQueue
  /-- R550: a deadline is written while its event is queued. Raised by `setDeadline`. Safe. -/
  | deadlineChangedWhileQueued
  /-- R556: an event is freed while it is queued. Raised by `free`. Safe. -/
  | freeWhileQueued
  /-- R559: an event is queued outside the range in which deadlines are ordered. Raised by `queue`. Safe. -/
  | deadlineOutOfRange
  /-- R541: `run()` is called from inside a callout. Safe. -/
  | reentrantRun
  /-- R542: `jump(pc)` is called from inside a callout. Safe. -/
  | jumpInsideStep
  /-- R560: `reset()` is called from inside a callout. Safe. -/
  | resetInsideStep
  /-- A move names an event that was never constructed or has been freed (log 13). Safe. -/
  | noSuchEvent
  /-- `init` of an event that is queued (log 13). Safe. -/
  | initWhileQueued
  /-- DISPATCH_IRQ with no line selected and not from CWAI (log 15): no run reaches it. Raised by `step`. Safe. -/
  | nothingSelected
deriving DecidableEq, Repr

/-- Why the model has no meaning for a form (`refuse(reason)` of R12). -/
inductive Refusal where
  /-- Raised by `exec` for an instruction whose meaning is not written yet. Safe. -/
  | notModelled (mnemonic : String)
  /-- R128, `INDEXED_UNDEFINED = REFUSE`: an undefined indexed postbyte. Raised by `step` at the fetch. Safe. -/
  | undefinedPostbyte (pb : Byte)
  /-- R340, with the parameter `TFR_UNDEFINED = REFUSE`: a TFR postbyte that is not regular. Safe. -/
  | irregularTfr
  /-- R340, with the parameter `TFR_UNDEFINED = REFUSE`: an EXG postbyte that is not regular. Safe. -/
  | irregularExg
  /-- R321, R355, with the parameter `ILLEGAL_UNCERTAIN = REFUSE`: opcode 0x38, 0x8F or 0xCF. Safe. -/
  | illegalUncertain
  /-- R408, with the parameter `PAGE23_UNDEFINED = REFUSE`: an undefined byte of page 2 or 3. Safe. -/
  | page23Undefined
  /-- Bytes that end inside an instruction. No step raises it: `step` fetches what the instruction asks for. Safe. -/
  | truncated
deriving DecidableEq, Repr

/-- The interrupt lines (R42). -/
inductive LineId where
  | nmi | firq | irq
deriving DecidableEq, Repr

/-- One interrupt line: asserted or not, and the cycle at which it was last asserted (R42). -/
structure Line where
  asserted : Bool
  tick     : Tick
deriving DecidableEq, Repr

/-- The execution state (R47). -/
inductive Phase where
  | reset | resetCheckHalt | labelA | labelB | dispatchIrq | nextInstruction | page2 | page3
  | sync | syncCheckHalt | cwaiCheckHalt | hcf
deriving DecidableEq, Repr

/-- The two event lists (R51). -/
inductive ListId where
  | ui | machine
deriving DecidableEq, Repr

/-- The name of an event, and of a callback. -/
abbrev EventId := Nat
abbrev CallbackId := Nat

/-- An event (R50). -/
structure Event where
  atTick   : Tick
  callback : CallbackId
  queued   : Bool
  list     : Option ListId
deriving DecidableEq, Repr

/-- The event scheduler: the events that exist, in rising order of their names, and the two lists, each in the order
in which its events are dispatched (R50, R51). -/
structure Sched where
  events  : List (EventId × Event)
  ui      : List EventId
  machine : List EventId
deriving DecidableEq, Repr

/-- What the host may do (R560): the moves of the table, in its order. `poke` is "change memory contents it owns". -/
inductive HostMove where
  | setLine (l : LineId) (v : Bool)
  | setHalt (v : Bool)
  | setRunning (v : Bool)
  | init (e : EventId) (cb : CallbackId)
  | queue (l : ListId) (e : EventId)
  | dequeue (e : EventId)
  | dispatchNext (l : ListId)
  | free (e : EventId)
  | setDeadline (e : EventId) (t : Tick)
  | poke (a : Word) (v : Byte)
  | reset
  | jump (pc : Word)
  | run
deriving DecidableEq, Repr

/-- What the world outside can see the core do: the bus callouts (R82), the callbacks (R558) and the hooks (R94). -/
inductive Obs where
  | read (a : Word) (v : Byte)
  | write (a : Word) (v : Byte)
  | callback (e : EventId) (cb : CallbackId)
  | instructionHook
  | instructionPosthook
  | interruptHook (v : Word)
deriving DecidableEq, Repr

/-- Memory: the bytes that differ from `Config.memFill`, in strictly rising order of address. -/
abbrev Memory := List Host.Cell

/-- The whole state. Registers: R30 to R37; D is not stored (R31). -/
structure State where
  a  : Byte
  b  : Byte
  x  : Word
  y  : Word
  u  : Word
  s  : Word
  pc : Word
  dp : Byte
  cc : Byte
  /-- Interrupt inputs (R42). -/
  nmi  : Line
  firq : Line
  irq  : Line
  /-- R43. -/
  nmiArmed   : Bool
  nmiRequest : Bool
  /-- The HALT input (R44). -/
  halt : Bool
  /-- R45. -/
  cycle : Tick
  /-- R47, named `state` there. -/
  phase : Phase
  /-- In-flight decode state (R48). -/
  viaCwai  : Bool
  irqSel   : Option LineId
  opcode   : Option Byte
  postbyte : Option Byte
  operand  : List Byte
  /-- The host's flag (R49). -/
  running : Bool
  /-- The event scheduler (R50, R51). -/
  sched : Sched
  /-- The address space (R80), as the host holds it. -/
  mem : Memory
  /-- The parameters of R7. No step changes them. -/
  params : Params
  /-- MODEL'S OWN (log 9): what the host does inside its coming callouts, one list of moves for each callout; with
  nothing left it only answers. -/
  script : List (List HostMove)
  /-- MODEL'S OWN (log 10): the first precondition the host broke inside a callout; the step then ends in it. -/
  hostFault : Option Fault
  /-- MODEL'S OWN (log 11): how many free values have been drawn. -/
  freeCount : Nat
  /-- MODEL'S OWN (log 8): everything the world outside has seen, the newest first. Nothing reads it. -/
  trace : List Obs
deriving DecidableEq, Repr

/-- Right after `reset()` on a machine just constructed (R52, R600, R604): the registers the spec gives no value at
the values Config names (logs 1, 2), the host's inputs idle (log 3). -/
def State.reset : State :=
  { a := Config.resetByte, b := Config.resetByte,
    x := Config.resetWord, y := Config.resetWord, u := Config.resetWord, s := Config.resetWord,
    pc := Config.resetWord, dp := 0x00#8, cc := Config.resetCc,
    nmi := ⟨false, 0#32⟩, firq := ⟨false, 0#32⟩, irq := ⟨false, 0#32⟩,
    nmiArmed := false, nmiRequest := false, halt := false, cycle := 0#32, phase := .reset,
    viaCwai := false, irqSel := none, opcode := none, postbyte := none, operand := [],
    running := true, sched := ⟨[], [], []⟩, mem := [], params := Config.resetParams,
    script := [], hostFault := none, freeCount := 0, trace := [] }

end Sys2Proof.Machine
end

