-- ==== Sys2Proof/Machine/Scheduler.lean ====
section
/-! DEFINITION. Tick arithmetic (spec 10_state.md R46) and the event scheduler (60_exceptions.md R550 to R559). -/

namespace Sys2Proof.Machine

/-- R46: the signed difference `a - b` of two ticks. -/
def tdiff (a b : Tick) : Int := (a - b).toInt

/-- R559: two ticks at most 2^31 - 1 apart. -/
def inWindow (a b : Tick) : Bool := (tdiff a b).natAbs ≤ 2147483647

def findEvent (e : EventId) : List (EventId × Event) → Option Event
  | [] => none
  | (k, ev) :: rest => if k = e then some ev else findEvent e rest

/-- Write an event, keeping the rising order of names. -/
def putEvent (e : EventId) (ev : Event) : List (EventId × Event) → List (EventId × Event)
  | [] => [(e, ev)]
  | (k, w) :: rest =>
    if e < k then (e, ev) :: (k, w) :: rest
    else if e = k then (e, ev) :: rest
    else (k, w) :: putEvent e ev rest

def eraseEvent (e : EventId) (evs : List (EventId × Event)) : List (EventId × Event) :=
  evs.filter fun p => p.1 ≠ e

def Sched.find (sc : Sched) (e : EventId) : Option Event := findEvent e sc.events

def Sched.put (sc : Sched) (e : EventId) (ev : Event) : Sched := { sc with events := putEvent e ev sc.events }

def Sched.getList (sc : Sched) : ListId → List EventId
  | .ui => sc.ui
  | .machine => sc.machine

def Sched.setList (sc : Sched) (l : ListId) (es : List EventId) : Sched :=
  match l with
  | .ui => { sc with ui := es }
  | .machine => { sc with machine := es }

/-- The deadline of an event on a list. -/
def Sched.deadline (sc : Sched) (e : EventId) : Tick :=
  match sc.find e with
  | some ev => ev.atTick
  | none => 0#32

/-- R551: before the first entry with a later deadline, after every entry with an equal one. -/
def Sched.insert (sc : Sched) (t : Tick) (e : EventId) : List EventId → List EventId
  | [] => [e]
  | x :: xs => if tdiff t (sc.deadline x) < 0 then e :: x :: xs else x :: sc.insert t e xs

/-- R550 `init`. The deadline is a free value until the owner writes it (log 11); an event that is queued cannot be
constructed again (log 13). -/
def Sched.init (sc : Sched) (e : EventId) (cb : CallbackId) (free : Tick) : Except Fault Sched :=
  match sc.find e with
  | some ⟨_, _, true, _⟩ => .error .initWhileQueued
  | _ => .ok (sc.put e ⟨free, cb, false, none⟩)

/-- R550: the owner writes a deadline, only while the event is not queued. -/
def Sched.setDeadline (sc : Sched) (e : EventId) (t : Tick) : Except Fault Sched :=
  match sc.find e with
  | none => .error .noSuchEvent
  | some ev => if ev.queued then .error .deadlineChangedWhileQueued else .ok (sc.put e { ev with atTick := t })

/-- R551 `queue`, with R559's range (log 12). -/
def Sched.queue (sc : Sched) (cycle : Tick) (l : ListId) (e : EventId) : Except Fault Sched :=
  match sc.find e with
  | none => .error .noSuchEvent
  | some ev =>
    if ev.queued then .error .doubleQueue
    else if inWindow ev.atTick cycle && (sc.getList l).all (fun x => inWindow ev.atTick (sc.deadline x)) then
      .ok ((sc.setList l (sc.insert ev.atTick e (sc.getList l))).put e { ev with queued := true, list := some l })
    else .error .deadlineOutOfRange

/-- R552 `dequeue`: a no-op on an event that is not queued. -/
def Sched.dequeue (sc : Sched) (e : EventId) : Sched :=
  match sc.find e with
  | some ⟨t, cb, true, some l⟩ =>
    (sc.setList l ((sc.getList l).filter (· ≠ e))).put e ⟨t, cb, false, none⟩
  | _ => sc

/-- R553 `dispatch_next`, up to the call of the callback: the head is popped and its flag cleared. The event and its
callback, or nothing when the list is empty. -/
def Sched.popHead (sc : Sched) (l : ListId) : Sched × Option (EventId × CallbackId) :=
  match sc.getList l with
  | [] => (sc, none)
  | e :: es =>
    match sc.find e with
    | some ev => ((sc.setList l es).put e { ev with queued := false, list := none }, some (e, ev.callback))
    | none => (sc.setList l es, none)

/-- R554: the list has a head and its deadline has come. -/
def Sched.due (sc : Sched) (cycle : Tick) (l : ListId) : Bool :=
  match sc.getList l with
  | [] => false
  | e :: _ => 0 ≤ tdiff cycle (sc.deadline e)

/-- R556 `free`. -/
def Sched.free (sc : Sched) (e : EventId) : Except Fault Sched :=
  match sc.find e with
  | none => .error .noSuchEvent
  | some ev => if ev.queued then .error .freeWhileQueued else .ok { sc with events := eraseEvent e sc.events }

end Sys2Proof.Machine
end

