-- ==== Sys2Proof/Machine/Ops.lean ====
section
/-! DEFINITION. The named operations: memory, the host's moves inside a callout, the bus cycles (spec 00_scope.md R10,
20_memory.md), fetching and the stacks (R11), and taking an interrupt and returning from one (60_exceptions.md). -/

namespace Sys2Proof.Machine

/-- How a step ends. -/
abbrev Out := Host.Outcome State Fault Refusal

/-! ### Memory (R80, R81) -/

/-- One byte. -/
def Memory.read (m : Memory) (a : Nat) : Byte :=
  match m with
  | [] => Config.memFill
  | (k, v) :: rest => if k = a then v else Memory.read rest a

/-- List a byte, keeping the rising order of addresses. -/
def Memory.insert (a : Nat) (v : Byte) : Memory → Memory
  | [] => [(a, v)]
  | (k, w) :: rest =>
    if a < k then (a, v) :: (k, w) :: rest
    else if a = k then (a, v) :: rest
    else (k, w) :: Memory.insert a v rest

/-- Write one byte: a byte equal to what an unlisted address reads as is not listed. -/
def Memory.write (m : Memory) (a : Nat) (v : Byte) : Memory :=
  if v = Config.memFill then m.filter fun c => c.1 ≠ a else Memory.insert a v m

/-- The canonical form: addresses of the address space, strictly rising, none listed that need not be. -/
def Memory.wf : Memory → Bool
  | [] => true
  | [(k, v)] => k < 65536 && v ≠ Config.memFill
  | (k, v) :: (k', v') :: rest => k < k' && v ≠ Config.memFill && Memory.wf ((k', v') :: rest)

/-! ### The host inside a callout (R560, R558) -/

/-- A precondition is broken: the first one is kept (log 10). -/
def State.raise (f : Fault) (s : State) : State := { s with hostFault := s.hostFault.or (some f) }

/-- R500: the tick is recorded at a clear-to-asserted edge only. -/
def Line.set (l : Line) (cycle : Tick) (v : Bool) : Line :=
  { asserted := v, tick := if v && !l.asserted then cycle else l.tick }

/-- R500 `set_line`; an NMI edge is latched only while armed (R502). -/
def setLine (l : LineId) (v : Bool) (s : State) : State :=
  match l with
  | .nmi => { s with nmi := s.nmi.set s.cycle v, nmiRequest := s.nmiRequest || (v && !s.nmi.asserted && s.nmiArmed) }
  | .firq => { s with firq := s.firq.set s.cycle v }
  | .irq => { s with irq := s.irq.set s.cycle v }

/-- The scheduler after an operation, or the precondition it breaks. -/
def State.withSched (s : State) : Except Fault Sched → State
  | .ok sc => { s with sched := sc }
  | .error f => s.raise f

/-- R553: pop the head and call its callback, whose body is what the host does next (R558, log 9). -/
def dispatchHead (l : ListId) (s : State) : State :=
  match (s.sched.popHead l).2 with
  | none => { s with sched := (s.sched.popHead l).1 }
  | some (e, cb) => { s with sched := (s.sched.popHead l).1, trace := .callback e cb :: s.trace }

/-- One move of the host inside a bus callout or an event callback (R560, last column). -/
def innerMove (s : State) : HostMove → State
  | .setLine l v => setLine l v s
  | .setHalt v => { s with halt := v }
  | .setRunning v => { s with running := v }
  | .init e cb => { s.withSched (s.sched.init e cb (Config.freeTick s.freeCount)) with freeCount := s.freeCount + 1 }
  | .queue l e => s.withSched (s.sched.queue s.cycle l e)
  | .dequeue e => { s with sched := s.sched.dequeue e }
  | .dispatchNext l => dispatchHead l s
  | .free e => s.withSched (s.sched.free e)
  | .setDeadline e t => s.withSched (s.sched.setDeadline e t)
  | .poke a v => { s with mem := s.mem.write a.toNat v }
  | .reset => s.raise .resetInsideStep
  | .jump _ => s.raise .jumpInsideStep
  | .run => s.raise .reentrantRun

/-- A callout: the host makes the moves its script holds for it, if any is left. -/
def callout (s : State) : State :=
  match s.script with
  | [] => s
  | moves :: rest => moves.foldl innerMove { s with script := rest }

/-! ### Bus cycles (R10, R45, R82) -/

/-- A bus cycle is seen and counted. -/
def State.tick (o : Obs) (s : State) : State := { s with cycle := s.cycle + 1#32, trace := o :: s.trace }

/-- `read_cycle`: the host's moves, its answer, and one tick. -/
def readCycle (a : Word) (s : State) : Byte × State :=
  let s := callout s
  (s.mem.read a.toNat, s.tick (.read a (s.mem.read a.toNat)))

/-- `write_cycle`: the host's moves, the byte handed over, and one tick. -/
def writeCycle (a : Word) (v : Byte) (s : State) : State :=
  let s := callout s
  { s with mem := s.mem.write a.toNat v }.tick (.write a v)

/-- `Dummy(addr)`: a read whose result is discarded. -/
def dummy (a : Word) (s : State) : State := (readCycle a s).2

/-- `Filler()`. -/
def filler (s : State) : State := dummy Config.fillerAddr s

/-- `n` fillers. -/
def fillers : Nat → State → State
  | 0, s => s
  | n + 1, s => fillers n (filler s)

/-- `MemRead16`: the high byte first, at the lower address. -/
def readWord (a : Word) (s : State) : Word × State :=
  let h := readCycle a s
  let l := readCycle (a + 1#16) h.2
  (joinBytes h.1 l.1, l.2)

/-- `MemWrite16`: the high byte first, at the lower address. -/
def writeWord (a : Word) (v : Word) (s : State) : State :=
  writeCycle (a + 1#16) (loByte v) (writeCycle a (hiByte v) s)

/-- `FetchByte()` (R11). -/
def fetchByte (s : State) : Byte × State :=
  let r := readCycle s.pc s
  (r.1, { r.2 with pc := r.2.pc + 1#16 })

/-! ### Registers -/

/-- R31: D is A:B. -/
def State.d (s : State) : Word := joinBytes s.a s.b

/-- R31: writing D writes A and B. -/
def State.setD (v : Word) (s : State) : State := { s with a := hiByte v, b := loByte v }

/-- An explicit load of S arms NMI (R505). -/
def State.loadS (v : Word) (s : State) : State := { s with s := v, nmiArmed := true }

/-- Enter a state of the execution state machine: `state <- X` (R12). -/
def State.goto (p : Phase) (s : State) : State := { s with phase := p }

/-! ### Stacks (R11, R345) -/

/-- The two stack pointers. -/
inductive Stack where
  | s | u
deriving DecidableEq, Repr

def State.sp (st : Stack) (s : State) : Word :=
  match st with
  | .s => s.s
  | .u => s.u

/-- An implicit change of a stack pointer; it does not arm NMI (R505). -/
def State.setSp (st : Stack) (v : Word) (s : State) : State :=
  match st with
  | .s => { s with s := v }
  | .u => { s with u := v }

/-- The other stack pointer, bit 6 of a register list. -/
def State.otherSp (st : Stack) (s : State) : Word :=
  match st with
  | .s => s.u
  | .u => s.s

/-- Pulling the other stack pointer: pulling S is an explicit load of S (R349, R505). -/
def State.setOtherSp (st : Stack) (v : Word) (s : State) : State :=
  match st with
  | .s => { s with u := v }
  | .u => s.loadS v

def push8 (st : Stack) (v : Byte) (s : State) : State :=
  let s := s.setSp st (s.sp st - 1#16)
  writeCycle (s.sp st) v s

/-- The low byte first, so that the high byte ends at the lower address. -/
def push16 (st : Stack) (v : Word) (s : State) : State := push8 st (hiByte v) (push8 st (loByte v) s)

def pull8 (st : Stack) (s : State) : Byte × State :=
  let r := readCycle (s.sp st) s
  (r.1, r.2.setSp st (r.2.sp st + 1#16))

def pull16 (st : Stack) (s : State) : Word × State :=
  let h := pull8 st s
  let l := pull8 st h.2
  (joinBytes h.1 l.1, l.2)

def push8If (c : Bool) (st : Stack) (f : State → Byte) (s : State) : State := if c then push8 st (f s) s else s

def push16If (c : Bool) (st : Stack) (f : State → Word) (s : State) : State := if c then push16 st (f s) s else s

def pull8If (c : Bool) (st : Stack) (f : Byte → State → State) (s : State) : State :=
  if c then f (pull8 st s).1 (pull8 st s).2 else s

def pull16If (c : Bool) (st : Stack) (f : Word → State → State) (s : State) : State :=
  if c then f (pull16 st s).1 (pull16 st s).2 else s

/-- R345 `push_list`: from bit 7 down to bit 0. -/
def pushList (st : Stack) (p : Byte) (s : State) : State :=
  let s := push16If (p.getLsbD 7) st State.pc s
  let s := push16If (p.getLsbD 6) st (State.otherSp st) s
  let s := push16If (p.getLsbD 5) st State.y s
  let s := push16If (p.getLsbD 4) st State.x s
  let s := push8If (p.getLsbD 3) st State.dp s
  let s := push8If (p.getLsbD 2) st State.b s
  let s := push8If (p.getLsbD 1) st State.a s
  push8If (p.getLsbD 0) st State.cc s

/-- R345 `pull_list`: from bit 0 up to bit 7. -/
def pullList (st : Stack) (p : Byte) (s : State) : State :=
  let s := pull8If (p.getLsbD 0) st (fun v s => { s with cc := v }) s
  let s := pull8If (p.getLsbD 1) st (fun v s => { s with a := v }) s
  let s := pull8If (p.getLsbD 2) st (fun v s => { s with b := v }) s
  let s := pull8If (p.getLsbD 3) st (fun v s => { s with dp := v }) s
  let s := pull16If (p.getLsbD 4) st (fun v s => { s with x := v }) s
  let s := pull16If (p.getLsbD 5) st (fun v s => { s with y := v }) s
  let s := pull16If (p.getLsbD 6) st (State.setOtherSp st) s
  pull16If (p.getLsbD 7) st (fun v s => { s with pc := v }) s

/-! ### How a step ends -/

/-- A step that ends: in the precondition the host broke inside a callout, if it broke one. -/
def settle (s : State) : Out :=
  match s.hostFault with
  | none => .next s
  | some f => .fault f

/-- A form the model has no meaning for (R12). -/
def refuse (r : Refusal) (s : State) : Out :=
  match s.hostFault with
  | none => .refused r
  | some f => .fault f

/-- R534: an instruction that sets no state of its own ends at LABEL_A, and the posthook is called. -/
def complete (s : State) : Out :=
  settle { s with phase := .labelA, trace := .instructionPosthook :: s.trace }

/-! ### Taking an interrupt and returning from one (R520 to R524, R403) -/

/-- CC bits E, F, I (R37). -/
def ccE : Byte := 0x80#8
def ccF : Byte := 0x40#8
def ccI : Byte := 0x10#8

/-- R522 `enter_vector`: the masks `m` are set in CC and PC is loaded from the vector at `v`. -/
def enterVector (v : Word) (m : Byte) (s : State) : State :=
  let s := { s with cc := s.cc ||| m, nmiRequest := if v = Config.vecNmi then false else s.nmiRequest,
                    trace := .interruptHook v :: s.trace }
  let s := filler s
  let r := readWord v s
  let s := filler { r.2 with pc := r.1 }
  { s with viaCwai := false, phase := .labelA }

/-- R520: E is set and the entire frame is pushed. -/
def stackEntire (s : State) : State := pushList .s 0xFF#8 { s with cc := s.cc ||| ccE }

/-- R521: E is cleared and PC and CC are pushed. -/
def stackFirq (s : State) : State := pushList .s 0x81#8 { s with cc := s.cc &&& ~~~ccE }

/-- R400: the software interrupts and RESET* (R401, R402, R406): the frame, then the vector. -/
def softwareInterrupt (v : Word) (m : Byte) (s : State) : Out :=
  let s := filler (dummy s.pc s)
  complete (enterVector v m (stackEntire s))

/-- R403: CC is pulled, and its E chooses between the entire frame and PC alone. -/
def returnFromInterrupt (s : State) : Out :=
  let s := dummy s.pc s
  let r := pull8 .s s
  let s := { r.2 with cc := r.1 }
  let s := pullList .s (if s.cc.getLsbD 7 then 0xFE#8 else 0x80#8) s
  complete (filler s)

end Sys2Proof.Machine
end

