-- ==== Sys2Proof/Machine/Operands.lean ====
section
/-! DEFINITION. The operand forms: effective addresses (spec 30_encoding.md R123 to R129) and the source and store
templates (41_acc8.md R268, R269; 42_reg16.md R303), each after its operand bytes have been fetched. An operation
that makes an address or a value answers it with the state after its bus cycles. -/

namespace Sys2Proof.Machine

/-- The base register of an indexed form (R125). -/
def State.idx (r : IdxReg) (s : State) : Word :=
  match r with
  | .x => s.x
  | .y => s.y
  | .u => s.u
  | .s => s.s

/-- The register update of an auto-increment or decrement; on S it does not arm NMI (R505, V85). -/
def State.setIdx (r : IdxReg) (v : Word) (s : State) : State :=
  match r with
  | .x => { s with x := v }
  | .y => { s with y := v }
  | .u => { s with u := v }
  | .s => { s with s := v }

/-- R126: the address of a form, its fillers performed and its register updated. PC is past the offset bytes. -/
def indexedForm (x : Indexed) (s : State) : Word × State :=
  match x.mode with
  | .off5 n => (s.idx x.reg + sext5 n, filler s)
  | .inc1 => (s.idx x.reg, (fillers 2 s).setIdx x.reg (s.idx x.reg + 1#16))
  | .inc2 => (s.idx x.reg, (fillers 3 s).setIdx x.reg (s.idx x.reg + 2#16))
  | .dec1 => (s.idx x.reg - 1#16, (fillers 2 s).setIdx x.reg (s.idx x.reg - 1#16))
  | .dec2 => (s.idx x.reg - 2#16, (fillers 3 s).setIdx x.reg (s.idx x.reg - 2#16))
  | .zero => (s.idx x.reg, s)
  | .accB => (s.idx x.reg + sext8 s.b, filler s)
  | .accA => (s.idx x.reg + sext8 s.a, filler s)
  | .off8 n => (s.idx x.reg + sext8 n, s)
  | .off16 n => (s.idx x.reg + n, fillers 2 s)
  | .accD => (s.idx x.reg + s.d, fillers 4 s)
  | .pcr8 n => (s.pc + sext8 n, s)
  | .pcr16 n => (s.pc + n, fillers 3 s)
  | .extInd n => (n, s)

/-- R127: the pointer at an address, and one filler. -/
def indirectEa (ea : Word) (s : State) : Word × State :=
  let r := readWord ea s
  (r.1, filler r.2)

/-- R129: the form, its indirection, and the base filler. -/
def eaIndexed (x : Indexed) (s : State) : Word × State :=
  let f := indexedForm x s
  let e := if x.indirect then indirectEa f.1 f.2 else f
  (e.1, filler e.2)

/-- R123, R124, R129. -/
def ea (m : MemOp) (s : State) : Word × State :=
  match m with
  | .direct off => (joinBytes s.dp off, filler s)
  | .indexed x => eaIndexed x s
  | .extended a => (a, filler s)

/-- R268 `operand8`. -/
def operand8 (o : Src8) (s : State) : Byte × State :=
  match o with
  | .imm v => (v, s)
  | .mem m => readCycle (ea m s).1 (ea m s).2

/-- R303 `operand16`. -/
def operand16 (o : Src16) (s : State) : Word × State :=
  match o with
  | .imm v => (v, s)
  | .mem m => readWord (ea m s).1 (ea m s).2

/-! ### TFR and EXG registers (R340 to R342) -/

/-- The width class of a register code (R340). -/
inductive RegClass where
  | word | byte | undef
deriving DecidableEq, Repr

def regClass : TReg → RegClass
  | .d | .x | .y | .u | .s | .pc => .word
  | .a | .b | .cc | .dp => .byte
  | .undef6 | .undef7 | .undefC | .undefD | .undefE | .undefF => .undef

/-- R340: both codes name registers of one width. -/
def regular (r1 r2 : TReg) : Bool := regClass r1 = regClass r2 && regClass r1 ≠ .undef

/-- R341: a register as a 16-bit value. The high byte of an 8-bit register is seen only by a form that is not regular,
and is then the `AS_XROAR` column's (log 20). -/
def tregRead (r : TReg) (s : State) : Word :=
  match r with
  | .d => s.d
  | .x => s.x
  | .y => s.y
  | .u => s.u
  | .s => s.s
  | .pc => s.pc
  | .a => joinBytes 0xFF#8 s.a
  | .b => joinBytes 0xFF#8 s.b
  | .cc => joinBytes s.cc s.cc
  | .dp => joinBytes s.dp s.dp
  | .undef6 | .undef7 | .undefC | .undefD | .undefE | .undefF => 0xFFFF#16

/-- R342: a write to S arms NMI; an undefined code discards the value. -/
def tregWrite (r : TReg) (v : Word) (s : State) : State :=
  match r with
  | .d => s.setD v
  | .x => { s with x := v }
  | .y => { s with y := v }
  | .u => { s with u := v }
  | .s => s.loadS v
  | .pc => { s with pc := v }
  | .a => { s with a := loByte v }
  | .b => { s with b := loByte v }
  | .cc => { s with cc := loByte v }
  | .dp => { s with dp := loByte v }
  | .undef6 | .undef7 | .undefC | .undefD | .undefE | .undefF => s

end Sys2Proof.Machine
end

