-- ==== Sys2Proof/Machine/Acc8.lean ====
section
/-! DEFINITION. 8-bit accumulator operations with a memory or immediate operand (spec 41_acc8.md R268 to R292). -/

namespace Sys2Proof.Machine

/-- `b <- operand8(m); A <- op(A, b)`. -/
def accA (op : Byte → Byte → Byte → Byte × Byte) (o : Src8) (s : State) : Out :=
  let r := operand8 o s
  let q := op r.2.cc r.2.a r.1
  complete { r.2 with a := q.1, cc := q.2 }

/-- `b <- operand8(m); B <- op(B, b)`. -/
def accB (op : Byte → Byte → Byte → Byte × Byte) (o : Src8) (s : State) : Out :=
  let r := operand8 o s
  let q := op r.2.cc r.2.b r.1
  complete { r.2 with b := q.1, cc := q.2 }

/-- `b <- operand8(m); op(A, b)`, the result discarded. -/
def testA (op : Byte → Byte → Byte → Byte × Byte) (o : Src8) (s : State) : Out :=
  let r := operand8 o s
  complete { r.2 with cc := (op r.2.cc r.2.a r.1).2 }

/-- `b <- operand8(m); op(B, b)`, the result discarded. -/
def testB (op : Byte → Byte → Byte → Byte × Byte) (o : Src8) (s : State) : Out :=
  let r := operand8 o s
  complete { r.2 with cc := (op r.2.cc r.2.b r.1).2 }

/-- R269 `store8`, the flags set from the stored value (R282). -/
def store8 (f : State → Byte) (m : MemOp) (s : State) : Out :=
  let e := ea m s
  let v := f e.2
  complete (writeCycle e.1 v { e.2 with cc := (Flags.opLd8 e.2.cc v).2 })

/-- R270. -/
def execSuba (o : Src8) (s : State) : Out := accA Flags.opSub8 o s

/-- R271. -/
def execSubb (o : Src8) (s : State) : Out := accB Flags.opSub8 o s

/-- R272. -/
def execCmpa (o : Src8) (s : State) : Out := testA Flags.opSub8 o s

/-- R273. -/
def execCmpb (o : Src8) (s : State) : Out := testB Flags.opSub8 o s

/-- R274. -/
def execSbca (o : Src8) (s : State) : Out := accA Flags.opSbc8 o s

/-- R275. -/
def execSbcb (o : Src8) (s : State) : Out := accB Flags.opSbc8 o s

/-- R276. -/
def execAnda (o : Src8) (s : State) : Out := accA Flags.opAnd8 o s

/-- R277. -/
def execAndb (o : Src8) (s : State) : Out := accB Flags.opAnd8 o s

/-- R278. -/
def execBita (o : Src8) (s : State) : Out := testA Flags.opAnd8 o s

/-- R279. -/
def execBitb (o : Src8) (s : State) : Out := testB Flags.opAnd8 o s

/-- R280. -/
def execLda (o : Src8) (s : State) : Out := accA (fun cc _ b => Flags.opLd8 cc b) o s

/-- R281. -/
def execLdb (o : Src8) (s : State) : Out := accB (fun cc _ b => Flags.opLd8 cc b) o s

/-- R282. -/
def execSta (m : MemOp) (s : State) : Out := store8 State.a m s

/-- R283. -/
def execStb (m : MemOp) (s : State) : Out := store8 State.b m s

/-- R284. -/
def execEora (o : Src8) (s : State) : Out := accA Flags.opEor8 o s

/-- R285. -/
def execEorb (o : Src8) (s : State) : Out := accB Flags.opEor8 o s

/-- R286. -/
def execAdca (o : Src8) (s : State) : Out := accA Flags.opAdc8 o s

/-- R287. -/
def execAdcb (o : Src8) (s : State) : Out := accB Flags.opAdc8 o s

/-- R288. -/
def execOra (o : Src8) (s : State) : Out := accA Flags.opOr8 o s

/-- R289. -/
def execOrb (o : Src8) (s : State) : Out := accB Flags.opOr8 o s

/-- R290. -/
def execAdda (o : Src8) (s : State) : Out := accA Flags.opAdd8 o s

/-- R291. -/
def execAddb (o : Src8) (s : State) : Out := accB Flags.opAdd8 o s

/-- R292: the operand byte is ignored, and so is which of the two opcodes it is. -/
def execDiscard (_op : DiscardOp) (_v : Byte) (s : State) : Out := complete { s with cc := Flags.discardCc s.cc }

end Sys2Proof.Machine
end

