-- ==== Sys2Proof/Machine/Control.lean ====
section
/-! DEFINITION. Branches, jumps and subroutine calls (spec 44_control.md R360 to R399). PC is past the instruction. -/

namespace Sys2Proof.Machine

/-- R361. -/
def shortBranch (c : Cond) (off : Byte) (s : State) : Out :=
  let s := filler s
  complete (if c.holds s.cc then { s with pc := s.pc + sext8 off } else s)

/-- R380: one more filler when the branch is taken. -/
def longBranch (c : Cond) (off : Word) (s : State) : Out :=
  let s := filler s
  if c.holds s.cc then
    let s := filler s
    complete { s with pc := s.pc + off }
  else complete s

/-- The tail of BSR, LBSR and JSR: a dummy read at the target, a filler, the return address pushed on S. -/
def callTarget (target : Word) (s : State) : Out :=
  let s := filler (dummy target s)
  complete { push16 .s s.pc s with pc := target }

/-- R362. -/
def execBra (off : Byte) (s : State) : Out := shortBranch .always off s

/-- R363. -/
def execBrn (off : Byte) (s : State) : Out := shortBranch .never off s

/-- R364. -/
def execBhi (off : Byte) (s : State) : Out := shortBranch .hi off s

/-- R365. -/
def execBls (off : Byte) (s : State) : Out := shortBranch .ls off s

/-- R366. -/
def execBcc (off : Byte) (s : State) : Out := shortBranch .cc off s

/-- R367. -/
def execBcs (off : Byte) (s : State) : Out := shortBranch .cs off s

/-- R368. -/
def execBne (off : Byte) (s : State) : Out := shortBranch .ne off s

/-- R369. -/
def execBeq (off : Byte) (s : State) : Out := shortBranch .eq off s

/-- R370. -/
def execBvc (off : Byte) (s : State) : Out := shortBranch .vc off s

/-- R371. -/
def execBvs (off : Byte) (s : State) : Out := shortBranch .vs off s

/-- R372. -/
def execBpl (off : Byte) (s : State) : Out := shortBranch .pl off s

/-- R373. -/
def execBmi (off : Byte) (s : State) : Out := shortBranch .mi off s

/-- R374. -/
def execBge (off : Byte) (s : State) : Out := shortBranch .ge off s

/-- R375. -/
def execBlt (off : Byte) (s : State) : Out := shortBranch .lt off s

/-- R376. -/
def execBgt (off : Byte) (s : State) : Out := shortBranch .gt off s

/-- R377. -/
def execBle (off : Byte) (s : State) : Out := shortBranch .le off s

/-- R381. -/
def execLbrn (off : Word) (s : State) : Out := longBranch .never off s

/-- R382. -/
def execLbhi (off : Word) (s : State) : Out := longBranch .hi off s

/-- R383. -/
def execLbls (off : Word) (s : State) : Out := longBranch .ls off s

/-- R384. -/
def execLbcc (off : Word) (s : State) : Out := longBranch .cc off s

/-- R385. -/
def execLbcs (off : Word) (s : State) : Out := longBranch .cs off s

/-- R386. -/
def execLbne (off : Word) (s : State) : Out := longBranch .ne off s

/-- R387. -/
def execLbeq (off : Word) (s : State) : Out := longBranch .eq off s

/-- R388. -/
def execLbvc (off : Word) (s : State) : Out := longBranch .vc off s

/-- R389. -/
def execLbvs (off : Word) (s : State) : Out := longBranch .vs off s

/-- R390. -/
def execLbpl (off : Word) (s : State) : Out := longBranch .pl off s

/-- R391. -/
def execLbmi (off : Word) (s : State) : Out := longBranch .mi off s

/-- R392. -/
def execLbge (off : Word) (s : State) : Out := longBranch .ge off s

/-- R393. -/
def execLblt (off : Word) (s : State) : Out := longBranch .lt off s

/-- R394. -/
def execLbgt (off : Word) (s : State) : Out := longBranch .gt off s

/-- R395. -/
def execLble (off : Word) (s : State) : Out := longBranch .le off s

/-- R378: two fillers, always taken. -/
def execLbra (off : Word) (s : State) : Out :=
  let s := fillers 2 s
  complete { s with pc := s.pc + off }

/-- R379. -/
def execLbsr (off : Word) (s : State) : Out := callTarget (s.pc + off) (fillers 2 s)

/-- R396. -/
def execBsr (off : Byte) (s : State) : Out := callTarget (s.pc + sext8 off) (filler s)

/-- R397. -/
def execJmp (m : MemOp) (s : State) : Out :=
  let e := ea m s
  complete { e.2 with pc := e.1 }

/-- R398: an address based on S uses S before the push. -/
def execJsr (m : MemOp) (s : State) : Out :=
  let e := ea m s
  callTarget e.1 e.2

/-- R399. -/
def execRts (s : State) : Out :=
  let r := pull16 .s (dummy s.pc s)
  complete (filler { r.2 with pc := r.1 })

end Sys2Proof.Machine
end

