-- ==== Sys2Proof/Machine/Reg16.lean ====
section
/-! DEFINITION. 16-bit register operations, address arithmetic, MUL, SEX and DAA (spec 42_reg16.md R303 to R329). -/

namespace Sys2Proof.Machine

/-- `b <- operand16(m); D <- op(D, b); Filler()`. -/
def arithD (op : Byte → Word → Word → Word × Byte) (o : Src16) (s : State) : Out :=
  let r := operand16 o s
  let q := op r.2.cc r.2.d r.1
  complete (filler { r.2.setD q.1 with cc := q.2 })

/-- `b <- operand16(m); op_sub16(R, b)`, the result discarded; `Filler()`. -/
def compare16 (f : State → Word) (o : Src16) (s : State) : Out :=
  let r := operand16 o s
  complete (filler { r.2 with cc := (Flags.opSub16 r.2.cc (f r.2) r.1).2 })

/-- `v <- operand16(m); R <- op_ld16(v)`. -/
def load16 (f : Word → State → State) (o : Src16) (s : State) : Out :=
  let r := operand16 o s
  complete (f r.1 { r.2 with cc := (Flags.opLd16 r.2.cc r.1).2 })

/-- `op_ld16(R)` sets the flags; then `store16(m, R)`. Each reads R where it stands (R611): the flags are those of R
before the address is made, the word stored is R after its register update (R129: `STX ,X++` stores the incremented X). -/
def store16 (f : State → Word) (m : MemOp) (s : State) : Out :=
  let flags := (Flags.opLd16 s.cc (f s)).2
  let e := ea m s
  complete (writeWord e.1 (f e.2) { e.2 with cc := flags })

/-- R321 with `AS_SPECIFIED`: one byte skipped, the low byte of the register written over the next (log 22). -/
def storeImm (f : State → Word) (s : State) : Out :=
  match s.params.illegalUncertain with
  | .refuse => refuse .illegalUncertain s
  | .asSpecified =>
    let s := dummy s.pc s
    let s := { s with pc := s.pc + 1#16 }
    let s := writeCycle s.pc (loByte (f s)) s
    complete { s with pc := s.pc + 1#16, cc := Flags.discardCc s.cc }

/-- R304. -/
def execAddd (o : Src16) (s : State) : Out := arithD Flags.opAdd16 o s

/-- R305. -/
def execSubd (o : Src16) (s : State) : Out := arithD Flags.opSub16 o s

/-- R306. -/
def execCmpd (o : Src16) (s : State) : Out := compare16 State.d o s

/-- R307. -/
def execCmpx (o : Src16) (s : State) : Out := compare16 State.x o s

/-- R308. -/
def execCmpy (o : Src16) (s : State) : Out := compare16 State.y o s

/-- R309. -/
def execCmpu (o : Src16) (s : State) : Out := compare16 State.u o s

/-- R310. -/
def execCmps (o : Src16) (s : State) : Out := compare16 State.s o s

/-- R311. -/
def execLdd (o : Src16) (s : State) : Out := load16 State.setD o s

/-- R312. -/
def execLdx (o : Src16) (s : State) : Out := load16 (fun v s => { s with x := v }) o s

/-- R313. -/
def execLdy (o : Src16) (s : State) : Out := load16 (fun v s => { s with y := v }) o s

/-- R314. -/
def execLdu (o : Src16) (s : State) : Out := load16 (fun v s => { s with u := v }) o s

/-- R315. -/
def execLds (o : Src16) (s : State) : Out := load16 State.loadS o s

/-- R316. -/
def execStd (m : MemOp) (s : State) : Out := store16 State.d m s

/-- R317. -/
def execStx (m : MemOp) (s : State) : Out := store16 State.x m s

/-- R318. -/
def execSty (m : MemOp) (s : State) : Out := store16 State.y m s

/-- R319. -/
def execStu (m : MemOp) (s : State) : Out := store16 State.u m s

/-- R320. -/
def execSts (m : MemOp) (s : State) : Out := store16 State.s m s

/-- R321, 0x8F. -/
def execStxImm (s : State) : Out := storeImm State.x s

/-- R321, 0xCF. -/
def execStuImm (s : State) : Out := storeImm State.u s

/-- `ea <- EA_indexed()`, the register and flags set from it, and one filler. -/
def lea (f : Word → State → State) (x : Indexed) (s : State) : Out :=
  let e := eaIndexed x s
  complete (filler (f e.1 e.2))

/-- R322: X and Z are written. -/
def execLeax (x : Indexed) (s : State) : Out := lea (fun v s => { s with x := v, cc := setCc .z (v == 0#16) s.cc }) x s

/-- R323: Y and Z are written. -/
def execLeay (x : Indexed) (s : State) : Out := lea (fun v s => { s with y := v, cc := setCc .z (v == 0#16) s.cc }) x s

/-- R324: S is loaded; no flag is written. -/
def execLeas (x : Indexed) (s : State) : Out := lea State.loadS x s

/-- R325: U is written; no flag is. -/
def execLeau (x : Indexed) (s : State) : Out := lea (fun v s => { s with u := v }) x s

/-- R326. -/
def execAbx (s : State) : Out :=
  let s := dummy s.pc s
  complete (filler { s with x := s.x + zext8 s.b })

/-- R327. -/
def execMul (s : State) : Out :=
  let s := dummy s.pc s
  let q := Flags.opMul s.cc s.a s.b
  complete (fillers 9 { s.setD q.1 with cc := q.2 })

/-- R328. -/
def execSex (s : State) : Out :=
  let s := dummy s.pc s
  let q := Flags.opSex s.cc s.b
  complete { s.setD q.1 with cc := q.2 }

/-- R329. -/
def execDaa (s : State) : Out :=
  let s := dummy s.pc s
  let q := Flags.opDaa s.cc s.a
  complete { s with a := q.1, cc := q.2 }

end Sys2Proof.Machine
end

