-- ==== Sys2Proof/Machine/Rmw8.lean ====
section
/-! DEFINITION. 8-bit read-modify-write and accumulator operations (spec 40_rmw8.md R212 to R251). -/

namespace Sys2Proof.Machine

/-- R212: the operand is read, a filler passes, and the result is written back. -/
def rmwMem (op : Byte → Byte → Byte × Byte) (m : MemOp) (s : State) : Out :=
  let e := ea m s
  let r := readCycle e.1 e.2
  let q := op r.2.cc r.1
  complete (writeCycle e.1 q.1 (filler { r.2 with cc := q.2 }))

/-- R212 with `op_tst`: no write cycle, two fillers instead. -/
def tstMem (m : MemOp) (s : State) : Out :=
  let e := ea m s
  let r := readCycle e.1 e.2
  complete (fillers 2 { r.2 with cc := (Flags.opTst r.2.cc r.1).2 })

/-- R213 on A. -/
def inhA (op : Byte → Byte → Byte × Byte) (s : State) : Out :=
  let s := dummy s.pc s
  complete { s with a := (op s.cc s.a).1, cc := (op s.cc s.a).2 }

/-- R213 on B. -/
def inhB (op : Byte → Byte → Byte × Byte) (s : State) : Out :=
  let s := dummy s.pc s
  complete { s with b := (op s.cc s.b).1, cc := (op s.cc s.b).2 }

/-- R213 with `op_tst`, which writes no register, on A. -/
def tstA (s : State) : Out :=
  let s := dummy s.pc s
  complete { s with cc := (Flags.opTst s.cc s.a).2 }

/-- R213 with `op_tst`, which writes no register, on B. -/
def tstB (s : State) : Out :=
  let s := dummy s.pc s
  complete { s with cc := (Flags.opTst s.cc s.b).2 }

/-- R214. -/
def execNeg (m : MemOp) (s : State) : Out := rmwMem Flags.opNeg m s

/-- R247. -/
def execNegDup (m : MemOp) (s : State) : Out := rmwMem Flags.opNeg m s

/-- R248. -/
def execNegcom (m : MemOp) (s : State) : Out := rmwMem Flags.opNegcom m s

/-- R217. -/
def execCom (m : MemOp) (s : State) : Out := rmwMem Flags.opCom m s

/-- R220. -/
def execLsr (m : MemOp) (s : State) : Out := rmwMem Flags.opLsr m s

/-- R249. -/
def execLsrDup (m : MemOp) (s : State) : Out := rmwMem Flags.opLsr m s

/-- R223. -/
def execRor (m : MemOp) (s : State) : Out := rmwMem Flags.opRor m s

/-- R226. -/
def execAsr (m : MemOp) (s : State) : Out := rmwMem Flags.opAsr m s

/-- R229. -/
def execAsl (m : MemOp) (s : State) : Out := rmwMem Flags.opAsl m s

/-- R232. -/
def execRol (m : MemOp) (s : State) : Out := rmwMem Flags.opRol m s

/-- R235. -/
def execDec (m : MemOp) (s : State) : Out := rmwMem Flags.opDec m s

/-- R250. -/
def execDecDup (m : MemOp) (s : State) : Out := rmwMem Flags.opDec m s

/-- R238. -/
def execInc (m : MemOp) (s : State) : Out := rmwMem Flags.opInc m s

/-- R241. -/
def execTst (m : MemOp) (s : State) : Out := tstMem m s

/-- R244. -/
def execClr (m : MemOp) (s : State) : Out := rmwMem Flags.opClr m s

/-- R215. -/
def execNega (s : State) : Out := inhA Flags.opNeg s

/-- R216. -/
def execNegb (s : State) : Out := inhB Flags.opNeg s

/-- R247. -/
def execNegaDup (s : State) : Out := inhA Flags.opNeg s

/-- R247. -/
def execNegbDup (s : State) : Out := inhB Flags.opNeg s

/-- R248. -/
def execNegcoma (s : State) : Out := inhA Flags.opNegcom s

/-- R248. -/
def execNegcomb (s : State) : Out := inhB Flags.opNegcom s

/-- R218. -/
def execComa (s : State) : Out := inhA Flags.opCom s

/-- R219. -/
def execComb (s : State) : Out := inhB Flags.opCom s

/-- R221. -/
def execLsra (s : State) : Out := inhA Flags.opLsr s

/-- R222. -/
def execLsrb (s : State) : Out := inhB Flags.opLsr s

/-- R249. -/
def execLsraDup (s : State) : Out := inhA Flags.opLsr s

/-- R249. -/
def execLsrbDup (s : State) : Out := inhB Flags.opLsr s

/-- R224. -/
def execRora (s : State) : Out := inhA Flags.opRor s

/-- R225. -/
def execRorb (s : State) : Out := inhB Flags.opRor s

/-- R227. -/
def execAsra (s : State) : Out := inhA Flags.opAsr s

/-- R228. -/
def execAsrb (s : State) : Out := inhB Flags.opAsr s

/-- R230. -/
def execAsla (s : State) : Out := inhA Flags.opAsl s

/-- R231. -/
def execAslb (s : State) : Out := inhB Flags.opAsl s

/-- R233. -/
def execRola (s : State) : Out := inhA Flags.opRol s

/-- R234. -/
def execRolb (s : State) : Out := inhB Flags.opRol s

/-- R236. -/
def execDeca (s : State) : Out := inhA Flags.opDec s

/-- R237. -/
def execDecb (s : State) : Out := inhB Flags.opDec s

/-- R250. -/
def execDecaDup (s : State) : Out := inhA Flags.opDec s

/-- R250. -/
def execDecbDup (s : State) : Out := inhB Flags.opDec s

/-- R239. -/
def execInca (s : State) : Out := inhA Flags.opInc s

/-- R240. -/
def execIncb (s : State) : Out := inhB Flags.opInc s

/-- R242. -/
def execTsta (s : State) : Out := tstA s

/-- R243. -/
def execTstb (s : State) : Out := tstB s

/-- R245. -/
def execClra (s : State) : Out := inhA Flags.opClr s

/-- R246. -/
def execClrb (s : State) : Out := inhB Flags.opClr s

/-- R251. -/
def execClraDup (s : State) : Out := inhA Flags.opClr s

/-- R251. -/
def execClrbDup (s : State) : Out := inhB Flags.opClr s

end Sys2Proof.Machine
end

