-- ==== Sys2Proof/Machine/System.lean ====
section
/-! DEFINITION. Software interrupts, return, waits, the illegal reset opcode, lockup and prefixes (spec 45_system.md
R400 to R409). -/

namespace Sys2Proof.Machine

/-- R400. -/
def execSwi (s : State) : Out := softwareInterrupt Config.vecSwi (ccF ||| ccI) s

/-- R401: no mask is set. -/
def execSwi2 (s : State) : Out := softwareInterrupt Config.vecSwi2 0#8 s

/-- R402: no mask is set. -/
def execSwi3 (s : State) : Out := softwareInterrupt Config.vecSwi3 0#8 s

/-- R406: through the RESET vector; it is not a reset. -/
def execResetIll (s : State) : Out := softwareInterrupt Config.vecReset (ccF ||| ccI) s

/-- R403. -/
def execRti (s : State) : Out := returnFromInterrupt s

/-- R404: the frame is pushed and the machine waits in DISPATCH_IRQ. -/
def execCwai (v : Byte) (s : State) : Out :=
  let s := { s with cc := (s.cc &&& v) ||| ccE }
  let s := filler (dummy s.pc s)
  let s := pushList .s 0xFF#8 s
  settle { s with viaCwai := true, phase := .dispatchIrq }

/-- R405: the machine waits in SYNC. -/
def execSync (s : State) : Out :=
  let s := filler (dummy s.pc s)
  settle (s.goto .sync)

/-- R407, whichever of the three opcodes it is. -/
def execHcf (_op : HcfOp) (s : State) : Out := settle (s.goto .hcf)

/-- R408, by the parameter `PAGE23_UNDEFINED`. -/
def undefinedByte (s : State) : Out :=
  match s.params.page23Undefined with
  | .hcf => settle (s.goto .hcf)
  | .refuse => refuse .page23Undefined s

/-- R408 on page 2. -/
def execPage2Undefined (_b : Byte) (s : State) : Out := undefinedByte s

/-- R408 on page 3. -/
def execPage3Undefined (_b : Byte) (s : State) : Out := undefinedByte s

/-- R409: the next step fetches a byte of page 2. -/
def execPage2Prefix (s : State) : Out := settle (s.goto .page2)

/-- R409: the next step fetches a byte of page 3. -/
def execPage3Prefix (s : State) : Out := settle (s.goto .page3)

end Sys2Proof.Machine
end

