-- ==== Sys2Proof/Machine/Transfer.lean ====
section
/-! DEFINITION. Register transfer, stack and condition-code instructions (spec 43_transfer_stack.md R340 to R355). -/

namespace Sys2Proof.Machine

/-- The model has no meaning for this pair (R340: not regular, and `TFR_UNDEFINED = REFUSE`). -/
def pairRefused (r1 r2 : TReg) (s : State) : Bool := !regular r1 r2 && s.params.tfrUndefined = .refuse

/-- R343. -/
def execTfr (r1 r2 : TReg) (s : State) : Out :=
  if pairRefused r1 r2 s then refuse .irregularTfr s
  else complete (tregWrite r2 (tregRead r1 s) (fillers 4 s))

/-- R344: both reads before either write, the first register written first. -/
def execExg (r1 r2 : TReg) (s : State) : Out :=
  if pairRefused r1 r2 s then refuse .irregularExg s
  else complete (tregWrite r2 (tregRead r1 s) (tregWrite r1 (tregRead r2 s) (fillers 6 s)))

/-- R346. -/
def execPshs (p : Byte) (s : State) : Out := complete (pushList .s p (fillers 3 s))

/-- R347. -/
def execPuls (p : Byte) (s : State) : Out := complete (filler (pullList .s p (fillers 2 s)))

/-- R348. -/
def execPshu (p : Byte) (s : State) : Out := complete (pushList .u p (fillers 3 s))

/-- R349. -/
def execPulu (p : Byte) (s : State) : Out := complete (filler (pullList .u p (fillers 2 s)))

/-- R350. -/
def execAndcc (v : Byte) (s : State) : Out := complete (filler { s with cc := s.cc &&& v })

/-- R351. -/
def execOrcc (v : Byte) (s : State) : Out := complete (filler { s with cc := s.cc ||| v })

/-- R352. -/
def execNop (s : State) : Out := complete (dummy s.pc s)

/-- R353. -/
def execNopDup (s : State) : Out := complete (dummy s.pc s)

/-- R354. -/
def execCcshift (s : State) : Out :=
  let s := dummy s.pc s
  complete (filler { s with cc := Flags.ccShift s.cc })

/-- R355: under `AS_SPECIFIED`, ANDCC with one more filler. -/
def execAndccDup (v : Byte) (s : State) : Out :=
  match s.params.illegalUncertain with
  | .refuse => refuse .illegalUncertain s
  | .asSpecified => complete (fillers 2 { s with cc := s.cc &&& v })

end Sys2Proof.Machine
end

