-- ==== Sys2Proof/Machine/Dispatch.lean ====
section
/-! DEFINITION. One arm for each instruction: the meaning it calls. -/

namespace Sys2Proof.Machine

def exec (i : Instr) (s : State) : Host.Outcome State Fault Refusal :=
  match i with
  | .neg m => Sys2Proof.Machine.execNeg m s
  | .negDup m => Sys2Proof.Machine.execNegDup m s
  | .negcom m => Sys2Proof.Machine.execNegcom m s
  | .com m => Sys2Proof.Machine.execCom m s
  | .lsr m => Sys2Proof.Machine.execLsr m s
  | .lsrDup m => Sys2Proof.Machine.execLsrDup m s
  | .ror m => Sys2Proof.Machine.execRor m s
  | .asr m => Sys2Proof.Machine.execAsr m s
  | .asl m => Sys2Proof.Machine.execAsl m s
  | .rol m => Sys2Proof.Machine.execRol m s
  | .dec m => Sys2Proof.Machine.execDec m s
  | .decDup m => Sys2Proof.Machine.execDecDup m s
  | .inc m => Sys2Proof.Machine.execInc m s
  | .tst m => Sys2Proof.Machine.execTst m s
  | .clr m => Sys2Proof.Machine.execClr m s
  | .nega => Sys2Proof.Machine.execNega s
  | .negb => Sys2Proof.Machine.execNegb s
  | .negaDup => Sys2Proof.Machine.execNegaDup s
  | .negbDup => Sys2Proof.Machine.execNegbDup s
  | .negcoma => Sys2Proof.Machine.execNegcoma s
  | .negcomb => Sys2Proof.Machine.execNegcomb s
  | .coma => Sys2Proof.Machine.execComa s
  | .comb => Sys2Proof.Machine.execComb s
  | .lsra => Sys2Proof.Machine.execLsra s
  | .lsrb => Sys2Proof.Machine.execLsrb s
  | .lsraDup => Sys2Proof.Machine.execLsraDup s
  | .lsrbDup => Sys2Proof.Machine.execLsrbDup s
  | .rora => Sys2Proof.Machine.execRora s
  | .rorb => Sys2Proof.Machine.execRorb s
  | .asra => Sys2Proof.Machine.execAsra s
  | .asrb => Sys2Proof.Machine.execAsrb s
  | .asla => Sys2Proof.Machine.execAsla s
  | .aslb => Sys2Proof.Machine.execAslb s
  | .rola => Sys2Proof.Machine.execRola s
  | .rolb => Sys2Proof.Machine.execRolb s
  | .deca => Sys2Proof.Machine.execDeca s
  | .decb => Sys2Proof.Machine.execDecb s
  | .decaDup => Sys2Proof.Machine.execDecaDup s
  | .decbDup => Sys2Proof.Machine.execDecbDup s
  | .inca => Sys2Proof.Machine.execInca s
  | .incb => Sys2Proof.Machine.execIncb s
  | .tsta => Sys2Proof.Machine.execTsta s
  | .tstb => Sys2Proof.Machine.execTstb s
  | .clra => Sys2Proof.Machine.execClra s
  | .clrb => Sys2Proof.Machine.execClrb s
  | .clraDup => Sys2Proof.Machine.execClraDup s
  | .clrbDup => Sys2Proof.Machine.execClrbDup s
  | .suba o => Sys2Proof.Machine.execSuba o s
  | .subb o => Sys2Proof.Machine.execSubb o s
  | .cmpa o => Sys2Proof.Machine.execCmpa o s
  | .cmpb o => Sys2Proof.Machine.execCmpb o s
  | .sbca o => Sys2Proof.Machine.execSbca o s
  | .sbcb o => Sys2Proof.Machine.execSbcb o s
  | .anda o => Sys2Proof.Machine.execAnda o s
  | .andb o => Sys2Proof.Machine.execAndb o s
  | .bita o => Sys2Proof.Machine.execBita o s
  | .bitb o => Sys2Proof.Machine.execBitb o s
  | .lda o => Sys2Proof.Machine.execLda o s
  | .ldb o => Sys2Proof.Machine.execLdb o s
  | .sta m => Sys2Proof.Machine.execSta m s
  | .stb m => Sys2Proof.Machine.execStb m s
  | .eora o => Sys2Proof.Machine.execEora o s
  | .eorb o => Sys2Proof.Machine.execEorb o s
  | .adca o => Sys2Proof.Machine.execAdca o s
  | .adcb o => Sys2Proof.Machine.execAdcb o s
  | .ora o => Sys2Proof.Machine.execOra o s
  | .orb o => Sys2Proof.Machine.execOrb o s
  | .adda o => Sys2Proof.Machine.execAdda o s
  | .addb o => Sys2Proof.Machine.execAddb o s
  | .discard op v => Sys2Proof.Machine.execDiscard op v s
  | .addd o => Sys2Proof.Machine.execAddd o s
  | .subd o => Sys2Proof.Machine.execSubd o s
  | .cmpd o => Sys2Proof.Machine.execCmpd o s
  | .cmpx o => Sys2Proof.Machine.execCmpx o s
  | .cmpy o => Sys2Proof.Machine.execCmpy o s
  | .cmpu o => Sys2Proof.Machine.execCmpu o s
  | .cmps o => Sys2Proof.Machine.execCmps o s
  | .ldd o => Sys2Proof.Machine.execLdd o s
  | .ldx o => Sys2Proof.Machine.execLdx o s
  | .ldy o => Sys2Proof.Machine.execLdy o s
  | .ldu o => Sys2Proof.Machine.execLdu o s
  | .lds o => Sys2Proof.Machine.execLds o s
  | .std m => Sys2Proof.Machine.execStd m s
  | .stx m => Sys2Proof.Machine.execStx m s
  | .sty m => Sys2Proof.Machine.execSty m s
  | .stu m => Sys2Proof.Machine.execStu m s
  | .sts m => Sys2Proof.Machine.execSts m s
  | .stxImm => Sys2Proof.Machine.execStxImm s
  | .stuImm => Sys2Proof.Machine.execStuImm s
  | .leax x => Sys2Proof.Machine.execLeax x s
  | .leay x => Sys2Proof.Machine.execLeay x s
  | .leas x => Sys2Proof.Machine.execLeas x s
  | .leau x => Sys2Proof.Machine.execLeau x s
  | .abx => Sys2Proof.Machine.execAbx s
  | .mul => Sys2Proof.Machine.execMul s
  | .sex => Sys2Proof.Machine.execSex s
  | .daa => Sys2Proof.Machine.execDaa s
  | .tfr r1 r2 => Sys2Proof.Machine.execTfr r1 r2 s
  | .exg r1 r2 => Sys2Proof.Machine.execExg r1 r2 s
  | .pshs p => Sys2Proof.Machine.execPshs p s
  | .puls p => Sys2Proof.Machine.execPuls p s
  | .pshu p => Sys2Proof.Machine.execPshu p s
  | .pulu p => Sys2Proof.Machine.execPulu p s
  | .andcc v => Sys2Proof.Machine.execAndcc v s
  | .orcc v => Sys2Proof.Machine.execOrcc v s
  | .nop => Sys2Proof.Machine.execNop s
  | .nopDup => Sys2Proof.Machine.execNopDup s
  | .ccshift => Sys2Proof.Machine.execCcshift s
  | .andccDup v => Sys2Proof.Machine.execAndccDup v s
  | .bra off => Sys2Proof.Machine.execBra off s
  | .brn off => Sys2Proof.Machine.execBrn off s
  | .bhi off => Sys2Proof.Machine.execBhi off s
  | .bls off => Sys2Proof.Machine.execBls off s
  | .bcc off => Sys2Proof.Machine.execBcc off s
  | .bcs off => Sys2Proof.Machine.execBcs off s
  | .bne off => Sys2Proof.Machine.execBne off s
  | .beq off => Sys2Proof.Machine.execBeq off s
  | .bvc off => Sys2Proof.Machine.execBvc off s
  | .bvs off => Sys2Proof.Machine.execBvs off s
  | .bpl off => Sys2Proof.Machine.execBpl off s
  | .bmi off => Sys2Proof.Machine.execBmi off s
  | .bge off => Sys2Proof.Machine.execBge off s
  | .blt off => Sys2Proof.Machine.execBlt off s
  | .bgt off => Sys2Proof.Machine.execBgt off s
  | .ble off => Sys2Proof.Machine.execBle off s
  | .lbra off => Sys2Proof.Machine.execLbra off s
  | .lbsr off => Sys2Proof.Machine.execLbsr off s
  | .lbrn off => Sys2Proof.Machine.execLbrn off s
  | .lbhi off => Sys2Proof.Machine.execLbhi off s
  | .lbls off => Sys2Proof.Machine.execLbls off s
  | .lbcc off => Sys2Proof.Machine.execLbcc off s
  | .lbcs off => Sys2Proof.Machine.execLbcs off s
  | .lbne off => Sys2Proof.Machine.execLbne off s
  | .lbeq off => Sys2Proof.Machine.execLbeq off s
  | .lbvc off => Sys2Proof.Machine.execLbvc off s
  | .lbvs off => Sys2Proof.Machine.execLbvs off s
  | .lbpl off => Sys2Proof.Machine.execLbpl off s
  | .lbmi off => Sys2Proof.Machine.execLbmi off s
  | .lbge off => Sys2Proof.Machine.execLbge off s
  | .lblt off => Sys2Proof.Machine.execLblt off s
  | .lbgt off => Sys2Proof.Machine.execLbgt off s
  | .lble off => Sys2Proof.Machine.execLble off s
  | .bsr off => Sys2Proof.Machine.execBsr off s
  | .jmp m => Sys2Proof.Machine.execJmp m s
  | .jsr m => Sys2Proof.Machine.execJsr m s
  | .rts => Sys2Proof.Machine.execRts s
  | .swi => Sys2Proof.Machine.execSwi s
  | .swi2 => Sys2Proof.Machine.execSwi2 s
  | .swi3 => Sys2Proof.Machine.execSwi3 s
  | .rti => Sys2Proof.Machine.execRti s
  | .cwai v => Sys2Proof.Machine.execCwai v s
  | .sync => Sys2Proof.Machine.execSync s
  | .resetIll => Sys2Proof.Machine.execResetIll s
  | .hcf op => Sys2Proof.Machine.execHcf op s
  | .page2Undefined b => Sys2Proof.Machine.execPage2Undefined b s
  | .page3Undefined b => Sys2Proof.Machine.execPage3Undefined b s
  | .page2Prefix => Sys2Proof.Machine.execPage2Prefix s
  | .page3Prefix => Sys2Proof.Machine.execPage3Prefix s

end Sys2Proof.Machine
end

