-- ==== Sys2Proof/Machine/Fetch.lean ====
section
/-! DEFINITION. Fetching an instruction's bytes (spec 30_encoding.md R111; 60_exceptions.md R534 to R536), and placing
an instruction where the next step fetches it. Every instruction rule fetches its operand bytes before any other bus
cycle of its own, so the fetch stands before `exec`. -/

namespace Sys2Proof.Machine

/-- An operand byte, kept in the in-flight state (R48). -/
def fetchOperand (s : State) : Byte × State :=
  let r := fetchByte s
  (r.1, { r.2 with operand := r.2.operand ++ [r.1] })

/-- A postbyte, kept in the in-flight state (R48). -/
def fetchPostbyte (s : State) : Byte × State :=
  let r := fetchByte s
  (r.1, { r.2 with postbyte := some r.1 })

/-- `n` operand bytes. -/
def fetchOperands : Nat → State → List Byte × State
  | 0, s => ([], s)
  | n + 1, s =>
    let b := fetchOperand s
    let r := fetchOperands n b.2
    (b.1 :: r.1, r.2)

/-- The bytes after an opcode byte, as its shape asks for them (R111). -/
def fetchRest (sh : Shape) (s : State) : List Byte × State :=
  match sh with
  | .inh _ => ([], s)
  | .byte _ => fetchOperands 1 s
  | .word _ => fetchOperands 2 s
  | .post _ =>
    let p := fetchPostbyte s
    ([p.1], p.2)
  | .indexed _ =>
    let p := fetchPostbyte s
    let r := fetchOperands (pbOffsetBytes p.1) p.2
    (p.1 :: r.1, r.2)

/-- The bytes of one instruction of a page, from its opcode byte on, each fetched by a bus cycle. -/
def fetchInstr (pg : Page) (s : State) : List Byte × State :=
  let o := fetchByte s
  let r := fetchRest (shapeOf pg o.1) { o.2 with opcode := some o.1, postbyte := none, operand := [] }
  (o.1 :: r.1, r.2)

/-- R355, R7: with `ILLEGAL_UNCERTAIN = REFUSE` the model refuses 0x38 after fetching its opcode byte, before its operand
byte. The other two opcodes of that parameter (R321) fetch no operand, so their meanings refuse at that point. -/
def refusedAtOpcode (pg : Page) (s : State) : Bool :=
  pg == .page0 && (fetchByte s).1 == 0x38#8 && s.params.illegalUncertain == .refuse

/-- R534: the instruction hook, before the page-0 fetch. -/
def hookFetch (s : State) : State := { s with trace := .instructionHook :: s.trace }

/-- Bytes that are no instruction are refused by name (R128). -/
def reject (e : DecodeError) (s : State) : Out :=
  match e with
  | .undefinedPostbyte pb => refuse (.undefinedPostbyte pb) s
  | .truncated => refuse .truncated s

/-- Bytes stored from an address on. -/
def storeBytes : Memory → Word → List Byte → Memory
  | m, _, [] => m
  | m, a, b :: bs => storeBytes (m.write a.toNat b) (a + 1#16) bs

/-- The state of the machine that fetches a byte of a page next. -/
def fetchPhase : Page → Phase
  | .page0 => .nextInstruction
  | .page2 => .page2
  | .page3 => .page3

/-- The instruction of a page, prefix included, stored at PC, with PC past the prefix and the machine about to fetch
the opcode byte; the host makes no move that could change it on the way (log 16). -/
def placeInstr (pg : Page) (bs : List Byte) (s : State) : State :=
  { s with mem := storeBytes s.mem s.pc (pg.prefixBytes ++ bs),
           pc := s.pc + BitVec.ofNat 16 pg.prefixBytes.length,
           phase := fetchPhase pg, script := [], hostFault := none }

end Sys2Proof.Machine
end

