-- ==== Sys2Proof/Machine/Interrupts.lean ====
section
/-! DEFINITION. Recognition of the interrupt lines (spec 60_exceptions.md R501 to R510), and the steps of the
execution state machine other than an instruction (R531 to R540; 70_reset_and_hazards.md R600 to R602). -/

namespace Sys2Proof.Machine

/-! ### Recognition -/

def State.line (s : State) : LineId → Line
  | .nmi => s.nmi
  | .firq => s.firq
  | .irq => s.irq

/-- R501: asserted at least 2 cycles ago. -/
def State.old (s : State) (l : LineId) : Bool := 2 ≤ tdiff s.cycle (s.line l).tick

/-- R501 without the mask of FIRQ and IRQ. -/
def State.pending (s : State) : LineId → Bool
  | .nmi => s.nmiRequest && s.old .nmi
  | .firq => s.firq.asserted && s.old .firq
  | .irq => s.irq.asserted && s.old .irq

/-- CC masks the line: F masks FIRQ, I masks IRQ, nothing masks NMI (R39). -/
def State.masked (s : State) : LineId → Bool
  | .nmi => false
  | .firq => s.cc.getLsbD 6
  | .irq => s.cc.getLsbD 4

/-- R501 `rec`. -/
def State.recognised (s : State) (l : LineId) : Bool := s.pending l && !s.masked l

/-- R506 `select()`: NMI before FIRQ before IRQ. -/
def State.select (s : State) : Option LineId :=
  if s.recognised .nmi then some .nmi
  else if s.recognised .firq then some .firq
  else if s.recognised .irq then some .irq
  else none

/-- R507: what ends SYNC. -/
def State.syncWake (s : State) : Bool :=
  if s.params.syncWakeOnMasked then s.pending .nmi || s.pending .firq || s.pending .irq
  else s.recognised .nmi || s.recognised .firq || s.recognised .irq

/-- R512: the vector of a line. -/
def LineId.vector : LineId → Word
  | .nmi => Config.vecNmi
  | .firq => Config.vecFirq
  | .irq => Config.vecIrq

/-- R512, R523: the masks its entry sets. -/
def LineId.masks : LineId → Byte
  | .nmi => ccF ||| ccI
  | .firq => ccF ||| ccI
  | .irq => ccI

/-! ### Reset -/

/-- R600 `reset_init()`. The registers the spec gives no value take the values `State.reset` gives them (log 1). -/
def resetInit (s : State) : State :=
  { s with a := Config.resetByte, b := Config.resetByte, x := Config.resetWord, y := Config.resetWord,
           u := Config.resetWord, s := Config.resetWord, dp := 0x00#8, cc := Config.resetCc,
           nmiArmed := false, nmiRequest := false, viaCwai := false, irqSel := none,
           opcode := none, postbyte := none, operand := [] }

/-- R600 `reset()`. -/
def hostReset (s : State) : State := (resetInit s).goto .reset

/-! ### Steps -/

/-- R601. -/
def stepReset (s : State) : State := (resetInit s).goto .resetCheckHalt

/-- R602. -/
def stepResetCheckHalt (s : State) : State :=
  if s.halt then filler s
  else
    let r := readWord Config.vecReset (filler s)
    (filler { r.2 with pc := r.1 }).goto .labelA

/-- R531. -/
def stepLabelA (s : State) : State := if s.halt then filler s else s.goto .labelB

/-- R532: the lines are sampled before the two dummy reads. -/
def stepLabelB (s : State) : State :=
  match s.select with
  | some l => { dummy s.pc (dummy s.pc s) with irqSel := some l, viaCwai := false, phase := .dispatchIrq }
  | none => s.goto .nextInstruction

/-- R520, R521: the frame of a line. -/
def stackFrame : LineId → State → State
  | .firq, s => stackFirq s
  | .nmi, s => stackEntire s
  | .irq, s => stackEntire s

/-- R533. -/
def stepDispatchIrq (s : State) : Out :=
  if s.viaCwai then
    match s.select with
    | none => settle (s.goto .cwaiCheckHalt)
    | some l => settle (enterVector l.vector l.masks s)
  else
    match s.irqSel with
    | none => .fault .nothingSelected
    | some l => settle (enterVector l.vector l.masks (stackFrame l (filler s)))

/-- R537: sampled before the filler. -/
def stepSync (s : State) : State := (filler s).goto (if s.syncWake then .labelB else .syncCheckHalt)

/-- R538. -/
def stepSyncCheckHalt (s : State) : State := if s.halt then filler s else s.goto .sync

/-- R539: the halt input is tested after the filler. -/
def stepCwaiCheckHalt (s : State) : State :=
  let s := filler s
  if s.halt then s else s.goto .dispatchIrq

/-- R540. -/
def stepHcf (s : State) : State := filler s

end Sys2Proof.Machine
end

