-- ==== Sys2Proof/Machine/Step.lean ====
section
/-! DEFINITION. One step: the action of the current execution state (spec 60_exceptions.md R530). -/

namespace Sys2Proof.Machine

/-- R534 to R536: the instruction at PC is fetched, decoded on its page, and executed; an opcode that is refused as such
is refused once it is fetched (R355). -/
def runInstruction (pg : Page) (s : State) : Out :=
  if refusedAtOpcode pg s then refuse .illegalUncertain (fetchByte s).2
  else match decode pg (fetchInstr pg s).1 with
  | .ok (i, _) => exec i (fetchInstr pg s).2
  | .error e => reject e (fetchInstr pg s).2

/-- R530 `step()`. -/
def step (s : State) : Host.Outcome State Fault Refusal :=
  match s.phase with
  | .reset => settle (stepReset s)
  | .resetCheckHalt => settle (stepResetCheckHalt s)
  | .labelA => settle (stepLabelA s)
  | .labelB => settle (stepLabelB s)
  | .dispatchIrq => stepDispatchIrq s
  | .nextInstruction => runInstruction .page0 (hookFetch s)
  | .page2 => runInstruction .page2 s
  | .page3 => runInstruction .page3 s
  | .sync => settle (stepSync s)
  | .syncCheckHalt => settle (stepSyncCheckHalt s)
  | .cwaiCheckHalt => settle (stepCwaiCheckHalt s)
  | .hcf => settle (stepHcf s)

/-- The instruction whose table word is `w`, placed so that the very next step fetches and runs it (log 16). -/
def State.withFetchWord (s : State) (nbits w : Nat) : State :=
  placeInstr (tableBytes nbits w).1 (tableBytes nbits w).2 s

end Sys2Proof.Machine
end

