-- ==== Sys2Proof/Machine/HostMoves.lean ====
section
/-! DEFINITION. The host between steps (spec 60_exceptions.md R541, R542, R555, R560, second column). -/

namespace Sys2Proof.Machine

/-- R541 `run()`: steps while `running` holds, tested before every step; `fuel` bounds how many are followed. -/
def runSteps : Nat → State → Out
  | 0, s => .next s
  | n + 1, s =>
    if s.running then
      match step s with
      | .next t => runSteps n t
      | .fault f => .fault f
      | .refused r => .refused r
    else .next s

/-- R542 `jump(pc)`: PC and nothing else. -/
def hostJump (pc : Word) (s : State) : State := { s with pc := pc }

/-- R553 between steps: the head is popped and its callback, one callout, runs to its end. -/
def hostDispatch (l : ListId) (s : State) : State :=
  match s.sched.getList l with
  | [] => s
  | _ :: _ => callout (dispatchHead l s)

/-- How many dispatches the lists and the script can still give rise to. -/
def dispatchBound (l : ListId) (s : State) : Nat := (s.sched.getList l).length + s.script.flatten.length

/-- R555 `run_queue(list)`, `n` times at most. -/
def runQueueN (l : ListId) : Nat → State → State
  | 0, s => s
  | n + 1, s => if s.sched.due s.cycle l then runQueueN l n (hostDispatch l s) else s

/-- R555 `run_queue(list)`. -/
def runQueue (l : ListId) (s : State) : State := runQueueN l (dispatchBound l s) s

/-- One move of the host between steps. `run` is one turn of `run()`'s loop. -/
def hostMove (m : HostMove) (s : State) : Out :=
  match m with
  | .reset => settle (hostReset s)
  | .jump pc => settle (hostJump pc s)
  | .run => runSteps 1 s
  | .dispatchNext l => settle (hostDispatch l s)
  | .setLine l v => settle (innerMove s (.setLine l v))
  | .setHalt v => settle (innerMove s (.setHalt v))
  | .setRunning v => settle (innerMove s (.setRunning v))
  | .init e cb => settle (innerMove s (.init e cb))
  | .queue l e => settle (innerMove s (.queue l e))
  | .dequeue e => settle (innerMove s (.dequeue e))
  | .free e => settle (innerMove s (.free e))
  | .setDeadline e t => settle (innerMove s (.setDeadline e t))
  | .poke a v => settle (innerMove s (.poke a v))

end Sys2Proof.Machine
end

