-- ==== Sys2Proof/Safety.lean ====
section
/-! DEFINITION. The terms the statements are made in: a host that does not interfere, what a run keeps, and the
spec's addresses, operands, register lists and bus sequences as functions of the state alone (spec 30_encoding.md
R123 to R129, 41_acc8.md R268, 42_reg16.md R303, 43_transfer_stack.md R345), without the steps that compute them. -/

namespace Sys2Proof.Machine

/-- The host makes no move inside the coming callouts and has broken no precondition (log 9). -/
def State.Quiet (s : State) : Prop := s.script = [] ∧ s.hostFault = none

/-! ### Bus sequences -/

/-- The byte at an address. -/
def State.byteAt (s : State) (a : Word) : Byte := s.mem.read a.toNat

/-- The word at an address, the high byte first (R83). -/
def State.wordAt (s : State) (a : Word) : Word := joinBytes (s.byteAt a) (s.byteAt (a + 1#16))

/-- A read cycle at an address, as the world sees it. -/
def State.look (s : State) (a : Word) : Obs := .read a (s.byteAt a)

/-- A filler cycle, as the world sees it. -/
def State.fill (s : State) : Obs := s.look Config.fillerAddr

/-- After the given bus cycles, in their order: each is one tick (R45). -/
def State.after (os : List Obs) (s : State) : State :=
  { s with cycle := s.cycle + BitVec.ofNat 32 os.length, trace := os.reverse ++ s.trace }

/-- R534: the instruction is over. -/
def State.done (s : State) : State := { s with phase := .labelA, trace := .instructionPosthook :: s.trace }

/-! ### Addresses (R123 to R129) -/

/-- The EA column of R126. -/
def formEa (x : Indexed) (s : State) : Word :=
  match x.mode with
  | .off5 n => s.idx x.reg + sext5 n
  | .inc1 => s.idx x.reg
  | .inc2 => s.idx x.reg
  | .dec1 => s.idx x.reg - 1#16
  | .dec2 => s.idx x.reg - 2#16
  | .zero => s.idx x.reg
  | .accB => s.idx x.reg + sext8 s.b
  | .accA => s.idx x.reg + sext8 s.a
  | .off8 n => s.idx x.reg + sext8 n
  | .off16 n => s.idx x.reg + n
  | .accD => s.idx x.reg + s.d
  | .pcr8 n => s.pc + sext8 n
  | .pcr16 n => s.pc + n
  | .extInd n => n

/-- The register-update column of R126. -/
def formRegs (x : Indexed) (s : State) : State :=
  match x.mode with
  | .inc1 => s.setIdx x.reg (s.idx x.reg + 1#16)
  | .inc2 => s.setIdx x.reg (s.idx x.reg + 2#16)
  | .dec1 => s.setIdx x.reg (s.idx x.reg - 1#16)
  | .dec2 => s.setIdx x.reg (s.idx x.reg - 2#16)
  | .off5 _ | .zero | .accB | .accA | .off8 _ | .off16 _ | .accD | .pcr8 _ | .pcr16 _ | .extInd _ => s

/-- The fillers of R126's sequence column. -/
def formFills : IdxMode → Nat
  | .zero | .off8 _ | .pcr8 _ | .extInd _ => 0
  | .off5 _ | .accB | .accA => 1
  | .inc1 | .dec1 | .off16 _ => 2
  | .inc2 | .dec2 | .pcr16 _ => 3
  | .accD => 4

/-- R129: the address an indexed operand names. -/
def indexedEa (x : Indexed) (s : State) : Word :=
  if x.indirect then s.wordAt (formEa x s) else formEa x s

/-- R126, R127, R129: the bus cycles that make it, after the operand bytes are fetched. -/
def indexedBus (x : Indexed) (s : State) : List Obs :=
  List.replicate (formFills x.mode) s.fill ++
    (if x.indirect then [s.look (formEa x s), s.look (formEa x s + 1#16), s.fill] else []) ++ [s.fill]

/-- The address a memory operand names. -/
def eaOf (m : MemOp) (s : State) : Word :=
  match m with
  | .direct off => joinBytes s.dp off
  | .indexed x => indexedEa x s
  | .extended a => a

/-- The state with the register update of a memory operand. -/
def eaRegs (m : MemOp) (s : State) : State :=
  match m with
  | .direct _ | .extended _ => s
  | .indexed x => formRegs x s

/-- The bus cycles that make the address. -/
def eaBus (m : MemOp) (s : State) : List Obs :=
  match m with
  | .direct _ | .extended _ => [s.fill]
  | .indexed x => indexedBus x s

/-! ### Source operands (R268, R303) -/

def src8Value (o : Src8) (s : State) : Byte :=
  match o with
  | .imm v => v
  | .mem m => s.byteAt (eaOf m s)

def src8Regs (o : Src8) (s : State) : State :=
  match o with
  | .imm _ => s
  | .mem m => eaRegs m s

def src8Bus (o : Src8) (s : State) : List Obs :=
  match o with
  | .imm _ => []
  | .mem m => eaBus m s ++ [s.look (eaOf m s)]

def src16Value (o : Src16) (s : State) : Word :=
  match o with
  | .imm v => v
  | .mem m => s.wordAt (eaOf m s)

def src16Regs (o : Src16) (s : State) : State :=
  match o with
  | .imm _ => s
  | .mem m => eaRegs m s

def src16Bus (o : Src16) (s : State) : List Obs :=
  match o with
  | .imm _ => []
  | .mem m => eaBus m s ++ [s.look (eaOf m s), s.look (eaOf m s + 1#16)]

/-! ### Register lists (R141, R345) -/

/-- The bytes of a register list in the order they are pushed: from bit 7 down, a word's low byte first. -/
def pushOrder (st : Stack) (p : Byte) (s : State) : List Byte :=
  (if p.getLsbD 7 then [loByte s.pc, hiByte s.pc] else []) ++
  (if p.getLsbD 6 then [loByte (s.otherSp st), hiByte (s.otherSp st)] else []) ++
  (if p.getLsbD 5 then [loByte s.y, hiByte s.y] else []) ++
  (if p.getLsbD 4 then [loByte s.x, hiByte s.x] else []) ++
  (if p.getLsbD 3 then [s.dp] else []) ++
  (if p.getLsbD 2 then [s.b] else []) ++
  (if p.getLsbD 1 then [s.a] else []) ++
  (if p.getLsbD 0 then [s.cc] else [])

/-- The bytes a register list names below bit `k` (R141): where a pull finds the register of bit `k`. -/
def listOffset (p : Byte) (k : Nat) : Nat :=
  ((List.range k).map fun j => if p.getLsbD j then (if j < 4 then 1 else 2) else 0).sum

/-- The bytes a register list names: `n` of R345. -/
def listBytes (p : Byte) : Nat := listOffset p 8

/-- The write cycles of a push, each one below the last. -/
def pushBus (sp : Word) : List Byte → List Obs
  | [] => []
  | v :: vs => .write (sp - 1#16) v :: pushBus (sp - 1#16) vs

/-- Memory after a push, each byte one below the last. -/
def pushMem (m : Memory) (sp : Word) : List Byte → Memory
  | [] => m
  | v :: vs => pushMem (m.write (sp - 1#16).toNat v) (sp - 1#16) vs

/-- The state after a register list is pushed. -/
def pushed (st : Stack) (p : Byte) (s : State) : State :=
  { (s.setSp st (s.sp st - BitVec.ofNat 16 (listBytes p))).after (pushBus (s.sp st) (pushOrder st p s)) with
    mem := pushMem s.mem (s.sp st) (pushOrder st p s) }

/-- The byte, or the word, a pull finds for the register of bit `k`. -/
def pulledByte (st : Stack) (p : Byte) (k : Nat) (s : State) : Byte :=
  s.byteAt (s.sp st + BitVec.ofNat 16 (listOffset p k))

def pulledWord (st : Stack) (p : Byte) (k : Nat) (s : State) : Word :=
  s.wordAt (s.sp st + BitVec.ofNat 16 (listOffset p k))

/-- The read cycles of a pull, each one above the last. -/
def pullBus (st : Stack) (p : Byte) (s : State) : List Obs :=
  (List.range (listBytes p)).map fun k => s.look (s.sp st + BitVec.ofNat 16 k)

/-- The state after a register list is pulled from S: bit 6 is U. -/
def pulledS (p : Byte) (s : State) : State :=
  { s.after (pullBus .s p s) with
    cc := if p.getLsbD 0 then pulledByte .s p 0 s else s.cc,
    a := if p.getLsbD 1 then pulledByte .s p 1 s else s.a,
    b := if p.getLsbD 2 then pulledByte .s p 2 s else s.b,
    dp := if p.getLsbD 3 then pulledByte .s p 3 s else s.dp,
    x := if p.getLsbD 4 then pulledWord .s p 4 s else s.x,
    y := if p.getLsbD 5 then pulledWord .s p 5 s else s.y,
    u := if p.getLsbD 6 then pulledWord .s p 6 s else s.u,
    pc := if p.getLsbD 7 then pulledWord .s p 7 s else s.pc,
    s := s.s + BitVec.ofNat 16 (listBytes p) }

/-- The state after a register list is pulled from U: bit 6 is S, whose load arms NMI (R349, R505). -/
def pulledU (p : Byte) (s : State) : State :=
  { s.after (pullBus .u p s) with
    cc := if p.getLsbD 0 then pulledByte .u p 0 s else s.cc,
    a := if p.getLsbD 1 then pulledByte .u p 1 s else s.a,
    b := if p.getLsbD 2 then pulledByte .u p 2 s else s.b,
    dp := if p.getLsbD 3 then pulledByte .u p 3 s else s.dp,
    x := if p.getLsbD 4 then pulledWord .u p 4 s else s.x,
    y := if p.getLsbD 5 then pulledWord .u p 5 s else s.y,
    s := if p.getLsbD 6 then pulledWord .u p 6 s else s.s,
    nmiArmed := s.nmiArmed || p.getLsbD 6,
    pc := if p.getLsbD 7 then pulledWord .u p 7 s else s.pc,
    u := s.u + BitVec.ofNat 16 (listBytes p) }

/-- R522: the state after the entry through the vector at `v` with the masks `m`. -/
def entered (v : Word) (m : Byte) (s : State) : State :=
  { s with cc := s.cc ||| m, nmiRequest := if v = Config.vecNmi then false else s.nmiRequest,
           cycle := s.cycle + 4#32,
           trace := [s.fill, s.look (v + 1#16), s.look v, s.fill, .interruptHook v] ++ s.trace,
           pc := s.wordAt v, viaCwai := false, phase := .labelA }

/-- The addresses an instruction may store to: the operand of a store or read-modify-write form (R123 to R129), the
second byte of the illegal immediate stores, and the bytes below a stack pointer that a push takes. -/
def storedTo (i : Instr) (s : State) : List Word :=
  match i with
  | .neg m | .negDup m | .negcom m | .com m | .lsr m | .lsrDup m | .ror m | .asr m | .asl m | .rol m | .dec m
  | .decDup m | .inc m | .clr m | .sta m | .stb m => [eaOf m s]
  | .std m | .stx m | .sty m | .stu m | .sts m => [eaOf m s, eaOf m s + 1#16]
  | .stxImm | .stuImm => [s.pc + 1#16]
  | .jsr m => [(eaRegs m s).s - 1#16, (eaRegs m s).s - 2#16]
  | .bsr _ | .lbsr _ => [s.s - 1#16, s.s - 2#16]
  | .pshs p => (List.range (listBytes p)).map fun k => s.s - 1#16 - BitVec.ofNat 16 k
  | .pshu p => (List.range (listBytes p)).map fun k => s.u - 1#16 - BitVec.ofNat 16 k
  | .swi | .swi2 | .swi3 | .resetIll | .cwai _ => (List.range 12).map fun k => s.s - 1#16 - BitVec.ofNat 16 k
  | _ => []

/-! ### What a run keeps -/

/-- The fields only the core's own steps change (R560: no move of the host inside a callout reaches them). -/
structure SameCpu (p q : State) : Prop where
  a : q.a = p.a
  b : q.b = p.b
  x : q.x = p.x
  y : q.y = p.y
  u : q.u = p.u
  s : q.s = p.s
  pc : q.pc = p.pc
  dp : q.dp = p.dp
  cc : q.cc = p.cc
  nmiArmed : q.nmiArmed = p.nmiArmed
  cycle : q.cycle = p.cycle
  phase : q.phase = p.phase
  viaCwai : q.viaCwai = p.viaCwai
  irqSel : q.irqSel = p.irqSel
  opcode : q.opcode = p.opcode
  postbyte : q.postbyte = p.postbyte
  operand : q.operand = p.operand
  params : q.params = p.params

/-- An event that exists is on the one list it names, and on none when it is not queued (R50). -/
def Sched.consistent (sc : Sched) : Prop :=
  sc.ui.Nodup ∧ sc.machine.Nodup ∧
  (∀ e, e ∈ sc.ui ↔ ∃ ev, sc.find e = some ev ∧ ev.list = some .ui) ∧
  (∀ e, e ∈ sc.machine ↔ ∃ ev, sc.find e = some ev ∧ ev.list = some .machine) ∧
  (∀ e ev, sc.find e = some ev → (ev.list = none ↔ ev.queued = false))

/-- What every step keeps: memory is in canonical form, the scheduler is consistent, an NMI is requested only while
armed (R501), and the machine is in a CWAI wait exactly in the states of that wait (R48, R524). -/
structure State.Inv (s : State) : Prop where
  mem : s.mem.wf = true
  sched : s.sched.consistent
  nmi : s.nmiRequest = true → s.nmiArmed = true
  cwai : s.viaCwai = true → s.phase = .dispatchIrq ∨ s.phase = .cwaiCheckHalt
  dispatch : s.phase = .dispatchIrq → s.viaCwai = true ∨ s.irqSel ≠ none
  check : s.phase = .cwaiCheckHalt → s.viaCwai = true

/-- A bus cycle among what the world sees. -/
def Obs.isBus : Obs → Bool
  | .read _ _ | .write _ _ => true
  | .callback _ _ | .instructionHook | .instructionPosthook | .interruptHook _ => false

end Sys2Proof.Machine
end

