-- ==== Sys2Proof/Certificates/Slice0/Obligations.lean ====
section
/-! DEFINITION. The statements for the provers. `Quiet` in a hypothesis: the host makes no move inside the step's bus
callouts. A next state written `{ s with … }` says the whole frame: every field not named is as it was. -/

open Sys2Proof Sys2Proof.Machine

/-! ### Encoding -/

/-- A few byte sequences written out from R113 to R115, R126, R140 and R141. -/
def Obligations.OpcodeWords : Prop :=
  decode .page0 [0xC6#8, 0x80#8] = .ok (.ldb (.imm 0x80#8), []) ∧
  decode .page0 [0x1D#8] = .ok (.sex, []) ∧
  decode .page0 [0x30#8, 0x1F#8] = .ok (.leax ⟨.x, .off5 0x1F#5, false⟩, []) ∧
  decode .page0 [0xA6#8, 0x9F#8, 0x50#8, 0x00#8] = .ok (.lda (.mem (.indexed ⟨.x, .extInd 0x5000#16, true⟩)), []) ∧
  decode .page0 [0x1F#8, 0x8A#8] = .ok (.tfr .a .cc, []) ∧
  decode .page0 [0x34#8, 0x06#8] = .ok (.pshs 0x06#8, []) ∧
  decode .page0 [0xBD#8, 0x20#8, 0x00#8] = .ok (.jsr (.extended 0x2000#16), []) ∧
  decode .page0 [0x10#8] = .ok (.page2Prefix, []) ∧
  decode .page2 [0xCE#8, 0x04#8, 0x00#8] = .ok (.lds (.imm 0x0400#16), []) ∧
  decode .page2 [0x27#8, 0xFF#8, 0xFC#8] = .ok (.lbeq 0xFFFC#16, []) ∧
  decode .page3 [0x83#8, 0x00#8, 0x01#8] = .ok (.cmpu (.imm 0x0001#16), []) ∧
  decode .page2 [0x20#8] = .ok (.page2Undefined 0x20#8, [])

/-- Decoding the bytes of a well-formed instruction gives it back, whatever follows them. -/
def Obligations.DecodeOfEncode : Prop :=
  ∀ (i : Instr) (rest : List Byte), i.wf = true → decode i.page (encodeOp i ++ rest) = .ok (i, rest)

/-- What the decoder answers is well-formed, stands on the page, and is encoded by exactly the bytes it consumed. -/
def Obligations.EncodeOfDecode : Prop :=
  ∀ (pg : Page) (bs rest : List Byte) (i : Instr), decode pg bs = .ok (i, rest) →
    i.wf = true ∧ i.page = pg ∧ encodeOp i ++ rest = bs

/-- R128: these postbytes, and no others, name no form; an instruction that fetches one is refused by name. -/
def Obligations.UndefinedPostbytes : Prop :=
  let undefinedForms : List Byte := [0x87#8, 0x8A#8, 0x8E#8, 0x8F#8, 0x90#8, 0x92#8, 0x97#8, 0x9A#8, 0x9E#8]
  (∀ (pb : Byte) (rest : List Byte),
    decodeIndexed (pb :: rest) = .error (.undefinedPostbyte pb) ↔ pb &&& 0x9F#8 ∈ undefinedForms) ∧
  (∀ (s : State) (pg : Page) (f : Indexed → Instr), s.Quiet → s.phase = fetchPhase pg →
    shapeOf pg (s.byteAt s.pc) = .indexed f → s.byteAt (s.pc + 1#16) &&& 0x9F#8 ∈ undefinedForms →
    step s = .refused (.undefinedPostbyte (s.byteAt (s.pc + 1#16))))

/-- A step in NEXT_INSTRUCTION, PAGE2 or PAGE3 fetches the bytes at PC that make an instruction, one bus cycle each,
moves PC past them, and executes the instruction. -/
def Obligations.StepRunsDecoded : Prop :=
  ∀ (s : State) (pg : Page) (i : Instr) (rest : List Byte), s.Quiet → s.phase = fetchPhase pg →
    decode pg [s.byteAt s.pc, s.byteAt (s.pc + 1#16), s.byteAt (s.pc + 2#16), s.byteAt (s.pc + 3#16)] = .ok (i, rest) →
    ∃ (op pb : Option Byte) (ops : List Byte),
      op = some (s.byteAt s.pc) ∧
      step s = exec i
        { s with
          pc := s.pc + BitVec.ofNat 16 (4 - rest.length),
          cycle := s.cycle + BitVec.ofNat 32 (4 - rest.length),
          opcode := op, postbyte := pb, operand := ops,
          trace := ((List.range (4 - rest.length)).map fun k => s.look (s.pc + BitVec.ofNat 16 k)).reverse ++
            (if pg = .page0 then .instructionHook :: s.trace else s.trace) }

/-! ### Reset -/

/-- R600: `reset()`; R542: `jump(pc)` sets PC and nothing else. The registers the spec leaves without a value are not
spoken of. That `reset()` leaves PC as it is is the model's choice (log 2): R600 names PC in no line. -/
def Obligations.HostReset : Prop :=
  ∀ s : State, (hostReset s).phase = .reset ∧ (hostReset s).dp = 0x00#8 ∧
    getCc .i (hostReset s).cc = true ∧ getCc .f (hostReset s).cc = true ∧
    (hostReset s).nmiArmed = false ∧ (hostReset s).nmiRequest = false ∧
    (hostReset s).viaCwai = false ∧ (hostReset s).irqSel = none ∧
    (hostReset s).nmi = s.nmi ∧ (hostReset s).firq = s.firq ∧ (hostReset s).irq = s.irq ∧
    (hostReset s).halt = s.halt ∧ (hostReset s).running = s.running ∧ (hostReset s).cycle = s.cycle ∧
    (hostReset s).sched = s.sched ∧ (hostReset s).mem = s.mem ∧ (hostReset s).pc = s.pc ∧
    (hostReset s).trace = s.trace ∧
    ∀ pc : Word, s.hostFault = none → hostMove (.jump pc) s = .next { s with pc := pc }

/-- R601, R602: from RESET, without halt, two steps read the vector in 4 cycles and reach LABEL_A. -/
def Obligations.ResetSequence : Prop :=
  ∀ s : State, s.Quiet → s.phase = .reset → s.halt = false →
    ∃ t u, step s = .next t ∧ t = (resetInit s).goto .resetCheckHalt ∧ step t = .next u ∧
      u = { t.after [t.fill, t.look 0xFFFE#16, t.look 0xFFFF#16, t.fill] with
            pc := joinBytes (s.byteAt 0xFFFE#16) (s.byteAt 0xFFFF#16), phase := .labelA }

/-! ### The execution state machine -/

/-- R531, R538, R539, R602: while `halt` is set, each of the four states that test it performs one filler cycle and
stays; without it LABEL_A and SYNC_CHECK_HALT move on without a bus cycle, CWAI_CHECK_HALT after one. -/
def Obligations.HaltInput : Prop :=
  ∀ s : State, s.Quiet →
    (s.halt = true → s.phase ∈ [.resetCheckHalt, .labelA, .syncCheckHalt, .cwaiCheckHalt] →
      step s = .next (s.after [s.fill])) ∧
    (s.halt = false → s.phase = .labelA → step s = .next { s with phase := .labelB }) ∧
    (s.halt = false → s.phase = .syncCheckHalt → step s = .next { s with phase := .sync }) ∧
    (s.halt = false → s.phase = .cwaiCheckHalt → step s = .next { s.after [s.fill] with phase := .dispatchIrq })

/-- R501: when a line is recognised. -/
def Obligations.Recognition : Prop :=
  ∀ s : State,
    (s.recognised .nmi = true ↔ s.nmiRequest = true ∧ 2 ≤ (s.cycle - s.nmi.tick).toInt) ∧
    (s.recognised .firq = true ↔
      s.firq.asserted = true ∧ getCc .f s.cc = false ∧ 2 ≤ (s.cycle - s.firq.tick).toInt) ∧
    (s.recognised .irq = true ↔
      s.irq.asserted = true ∧ getCc .i s.cc = false ∧ 2 ≤ (s.cycle - s.irq.tick).toInt)

/-- R532, R506: LABEL_B takes the first recognised line of NMI, FIRQ, IRQ, with two dummy reads of PC; with none it
goes on to the next instruction without a bus cycle. -/
def Obligations.LabelB : Prop :=
  ∀ s : State, s.Quiet → s.phase = .labelB →
    (∀ l : LineId, s.recognised l = true →
      (l = .firq → s.recognised .nmi = false) →
      (l = .irq → s.recognised .nmi = false ∧ s.recognised .firq = false) →
      step s = .next { s.after [s.look s.pc, s.look s.pc] with
        irqSel := some l, viaCwai := false, phase := .dispatchIrq }) ∧
    ((∀ l : LineId, s.recognised l = false) → step s = .next { s with phase := .nextInstruction })

/-- R533, R520, R521, R512: NMI and IRQ set E, push the entire frame and enter through their vector with their masks;
FIRQ clears E, pushes PC and CC only, and sets F and I. -/
def Obligations.InterruptEntry : Prop :=
  ∀ s : State, s.Quiet → s.phase = .dispatchIrq → s.viaCwai = false →
    (s.irqSel = some .nmi →
      step s = .next (entered 0xFFFC#16 0x50#8 (pushed .s 0xFF#8 { s.after [s.fill] with cc := s.cc ||| 0x80#8 }))) ∧
    (s.irqSel = some .irq →
      step s = .next (entered 0xFFF8#16 0x10#8 (pushed .s 0xFF#8 { s.after [s.fill] with cc := s.cc ||| 0x80#8 }))) ∧
    (s.irqSel = some .firq →
      step s = .next (entered 0xFFF6#16 0x50#8 (pushed .s 0x81#8 { s.after [s.fill] with cc := s.cc &&& 0x7F#8 })))

/-- R524, R508: out of CWAI the frame already pushed is kept and the selected line is entered; with no line the wait
goes on without a bus cycle. -/
def Obligations.CwaiEntry : Prop :=
  ∀ s : State, s.Quiet → s.phase = .dispatchIrq → s.viaCwai = true →
    (∀ (l : LineId) (v : Word) (m : Byte),
      (l, v, m) ∈ [(LineId.nmi, 0xFFFC#16, 0x50#8), (LineId.firq, 0xFFF6#16, 0x50#8), (LineId.irq, 0xFFF8#16, 0x10#8)] →
      s.select = some l → step s = .next (entered v m s)) ∧
    (s.select = none → step s = .next { s with phase := .cwaiCheckHalt })

/-- R520: where the entire frame lies, and that no other byte changes. -/
def Obligations.EntireFrameLayout : Prop :=
  ∀ s : State,
    (pushed .s 0xFF#8 s).s = s.s - 12#16 ∧
    (∀ k : Nat, k < 12 → (pushed .s 0xFF#8 s).byteAt (s.s - 12#16 + BitVec.ofNat 16 k) =
      [s.cc, s.a, s.b, s.dp, hiByte s.x, loByte s.x, hiByte s.y, loByte s.y, hiByte s.u, loByte s.u,
       hiByte s.pc, loByte s.pc].getD k 0#8) ∧
    (∀ a : Word, 12 ≤ (a - (s.s - 12#16)).toNat → (pushed .s 0xFF#8 s).byteAt a = s.byteAt a)

/-- R537, R507: SYNC samples the lines, performs one filler cycle, and leaves for LABEL_B when one is recognised; with
the parameter `SYNC_WAKE_ON_MASKED` the masks do not count. -/
def Obligations.SyncWait : Prop :=
  ∀ s : State, s.Quiet → s.phase = .sync →
    (s.params.syncWakeOnMasked = false →
      step s = .next { s.after [s.fill] with
        phase := if s.recognised .nmi || s.recognised .firq || s.recognised .irq then .labelB else .syncCheckHalt }) ∧
    (s.params.syncWakeOnMasked = true →
      step s = .next { s.after [s.fill] with
        phase := if (s.nmiRequest && s.old .nmi) || (s.firq.asserted && s.old .firq) || (s.irq.asserted && s.old .irq)
          then .labelB else .syncCheckHalt })

/-- R540, R407: `n` steps in HCF are `n` filler cycles and nothing else; and whatever the host does, a step in HCF
leaves every register, the state and the NMI arming as they are. -/
def Obligations.HcfForever : Prop :=
  (∀ (n : Nat) (s : State), s.Quiet → s.phase = .hcf →
    Sys2Proof.core.run n s = .next (s.after (List.replicate n s.fill))) ∧
  (∀ s t : State, s.phase = .hcf → step s = .next t → SameCpu { s with cycle := s.cycle + 1#32 } t)

/-- R530: the next states of every state. -/
def Obligations.PhaseGraph : Prop :=
  ∀ s t : State, step s = .next t →
    t.phase ∈ (match s.phase with
      | .reset => [.resetCheckHalt]
      | .resetCheckHalt => [.resetCheckHalt, .labelA]
      | .labelA => [.labelA, .labelB]
      | .labelB => [.dispatchIrq, .nextInstruction]
      | .dispatchIrq => [.labelA, .cwaiCheckHalt]
      | .nextInstruction => [.labelA, .page2, .page3, .sync, .dispatchIrq, .hcf]
      | .page2 => [.labelA, .hcf]
      | .page3 => [.labelA, .hcf]
      | .sync => [.labelB, .syncCheckHalt]
      | .syncCheckHalt => [.syncCheckHalt, .sync]
      | .cwaiCheckHalt => [.cwaiCheckHalt, .dispatchIrq]
      | .hcf => [.hcf] : List Phase)

/-! ### Whole-machine rules -/

/-- R45, R82: the cycle counter advances by one for each bus cycle the world sees, and by nothing else, whatever the
host does. -/
def Obligations.CycleCountsBusCycles : Prop :=
  ∀ s t : State, step s = .next t →
    ∃ seen : List Obs, t.trace = seen ++ s.trace ∧
      t.cycle = s.cycle + BitVec.ofNat 32 (seen.filter Obs.isBus).length

/-- Every step keeps the invariant, whatever the host does inside it. -/
def Obligations.StepKeepsInv : Prop :=
  ∀ s t : State, s.Inv → step s = .next t → t.Inv

/-- The machine right after reset meets the invariant. -/
def Obligations.ResetInv : Prop := State.reset.Inv

/-- Every move of the host between steps keeps the invariant. -/
def Obligations.HostMoveKeepsInv : Prop :=
  ∀ (m : HostMove) (s t : State), s.Inv → hostMove m s = .next t → t.Inv

/-- R40: only ADDA, ADDB, ADCA, ADCB and the instructions that write CC as a whole write H. -/
def Obligations.HalfCarryWriters : Prop :=
  ∀ (i : Instr) (s t : State), exec i s = .next t → getCc .h t.cc ≠ getCc .h s.cc →
    (∃ o, i = .adda o ∨ i = .addb o ∨ i = .adca o ∨ i = .adcb o) ∨
    (∃ v, i = .andcc v ∨ i = .orcc v ∨ i = .cwai v ∨ i = .andccDup v) ∨
    (∃ r, i = .tfr r .cc ∨ i = .exg r .cc ∨ i = .exg .cc r) ∨
    (∃ p : Byte, p.getLsbD 0 = true ∧ (i = .puls p ∨ i = .pulu p)) ∨
    i = .rti ∨ i = .ccshift

/-- R36: of the instructions only TFR and EXG with DP, PULS and PULU with the DP bit, and RTI of an entire frame write
DP. -/
def Obligations.DirectPageWriters : Prop :=
  ∀ (i : Instr) (s t : State), exec i s = .next t → t.dp ≠ s.dp →
    (∃ r, i = .tfr r .dp ∨ i = .exg r .dp ∨ i = .exg .dp r) ∨
    (∃ p : Byte, p.getLsbD 3 = true ∧ (i = .puls p ∨ i = .pulu p)) ∨
    (i = .rti ∧ getCc .e t.cc = true)

/-- R505: the instructions that arm NMI are exactly the explicit loads of S; of the steps that run no instruction only
that of RESET changes the arming, and it clears it, as `reset()` does. -/
def Obligations.NmiArming : Prop :=
  (∀ (i : Instr) (s t : State), exec i s = .next t →
    (t.nmiArmed = true ↔ s.nmiArmed = true ∨
      (∃ o, i = .lds o) ∨ (∃ x, i = .leas x) ∨
      (∃ r, i = .tfr r .s ∨ i = .exg r .s ∨ i = .exg .s r) ∨
      (∃ p : Byte, p.getLsbD 6 = true ∧ i = .pulu p))) ∧
  (∀ s t : State, step s = .next t → s.phase ∉ [.nextInstruction, .page2, .page3] →
    t.nmiArmed = (s.phase != .reset && s.nmiArmed)) ∧
  (∀ s : State, (hostReset s).nmiArmed = false)

/-- R500, R502: an edge of NMI while disarmed is discarded; while armed it is latched, and releasing the line does not
clear it. FIRQ and IRQ are levels: a setter touches its own line only. -/
def Obligations.SetLine : Prop :=
  ∀ (s : State) (v : Bool),
    setLine .nmi v s =
      { s with nmi := ⟨v, if v = true ∧ s.nmi.asserted = false then s.cycle else s.nmi.tick⟩,
               nmiRequest := s.nmiRequest || (v && !s.nmi.asserted && s.nmiArmed) } ∧
    setLine .firq v s = { s with firq := ⟨v, if v = true ∧ s.firq.asserted = false then s.cycle else s.firq.tick⟩ } ∧
    setLine .irq v s = { s with irq := ⟨v, if v = true ∧ s.irq.asserted = false then s.cycle else s.irq.tick⟩ }

/-- Memory frame of every instruction: every address it does not store to reads as before. -/
def Obligations.MemoryFrame : Prop :=
  ∀ (i : Instr) (s t : State), s.Quiet → exec i s = .next t →
    ∀ a : Word, a ∉ storedTo i s → t.byteAt a = s.byteAt a

/-! ### Flag computations -/

/-- R200 to R211: result, N, Z, V, C of every one-operand primitive; E, F, H, I never change. -/
def Obligations.OneOperandFlags : Prop :=
  ∀ cc v : Byte,
    let c := getCc .c cc
    (∀ (op : Byte → Byte → Byte × Byte) (r : Byte) (vf cf : Bool),
      (op, r, vf, cf) ∈
        [(Flags.opNeg, 0#8 - v, v == 0x80#8, v != 0#8),
         (Flags.opCom, ~~~v, false, true),
         (Flags.opLsr, v >>> 1, getCc .v cc, v.getLsbD 0),
         (Flags.opRor, BitVec.ofBool c ++ v.extractLsb' 1 7, getCc .v cc, v.getLsbD 0),
         (Flags.opAsr, BitVec.ofBool (v.getLsbD 7) ++ v.extractLsb' 1 7, getCc .v cc, v.getLsbD 0),
         (Flags.opAsl, v <<< 1, v.getLsbD 7 ^^ v.getLsbD 6, v.getLsbD 7),
         (Flags.opRol, v.extractLsb' 0 7 ++ BitVec.ofBool c, v.getLsbD 7 ^^ v.getLsbD 6, v.getLsbD 7),
         (Flags.opDec, v - 1#8, v == 0x80#8, c),
         (Flags.opInc, v + 1#8, v == 0x7F#8, c),
         (Flags.opTst, v, false, c),
         (Flags.opClr, 0#8, false, false),
         (Flags.opNegcom, if c then ~~~v else 0#8 - v, if c then false else v == 0x80#8,
           if c then true else v != 0#8)] →
      (op cc v).1 = r ∧ getCc .n (op cc v).2 = r.getLsbD 7 ∧ getCc .z (op cc v).2 = (r == 0#8) ∧
      getCc .v (op cc v).2 = vf ∧ getCc .c (op cc v).2 = cf ∧
      (op cc v).2 &&& 0xF0#8 = cc &&& 0xF0#8)

/-- R260 to R267: the sum or difference is exact mod 256; C is the carry or borrow out of bit 7, V the signed overflow,
H (additions only) the carry out of bit 3. `c` is the carry in of ADC and SBC. The logical operations and
loads clear V and leave C and the upper half of CC. -/
def Obligations.TwoOperandFlags : Prop :=
  ∀ cc a b : Byte,
    let c : Nat := if getCc .c cc then 1 else 0
    (∀ (op : Byte → Byte → Byte → Byte × Byte) (k : Nat), (op, k) ∈ [(Flags.opAdd8, 0), (Flags.opAdc8, c)] →
      (op cc a b).1 = BitVec.ofNat 8 (a.toNat + b.toNat + k) ∧
      getCc .c (op cc a b).2 = decide (256 ≤ a.toNat + b.toNat + k) ∧
      getCc .h (op cc a b).2 = decide (16 ≤ a.toNat % 16 + b.toNat % 16 + k) ∧
      getCc .v (op cc a b).2 = decide (a.toInt + b.toInt + k < -128 ∨ 127 < a.toInt + b.toInt + k) ∧
      getCc .n (op cc a b).2 = (op cc a b).1.getLsbD 7 ∧ getCc .z (op cc a b).2 = ((op cc a b).1 == 0#8) ∧
      (op cc a b).2 &&& 0xD0#8 = cc &&& 0xD0#8) ∧
    (∀ (op : Byte → Byte → Byte → Byte × Byte) (k : Nat), (op, k) ∈ [(Flags.opSub8, 0), (Flags.opSbc8, c)] →
      (op cc a b).1 = BitVec.ofInt 8 (a.toInt - b.toInt - k) ∧
      getCc .c (op cc a b).2 = decide (a.toNat < b.toNat + k) ∧
      getCc .v (op cc a b).2 = decide (a.toInt - b.toInt - k < -128 ∨ 127 < a.toInt - b.toInt - k) ∧
      getCc .n (op cc a b).2 = (op cc a b).1.getLsbD 7 ∧ getCc .z (op cc a b).2 = ((op cc a b).1 == 0#8) ∧
      (op cc a b).2 &&& 0xF0#8 = cc &&& 0xF0#8) ∧
    (∀ (op : Byte → Byte → Byte → Byte × Byte) (r : Byte),
      (op, r) ∈ [(Flags.opAnd8, a &&& b), (Flags.opOr8, a ||| b), (Flags.opEor8, a ^^^ b),
                 ((fun cc _ b => Flags.opLd8 cc b), b)] →
      (op cc a b).1 = r ∧ getCc .n (op cc a b).2 = r.getLsbD 7 ∧ getCc .z (op cc a b).2 = (r == 0#8) ∧
      getCc .v (op cc a b).2 = false ∧ (op cc a b).2 &&& 0xF1#8 = cc &&& 0xF1#8)

/-- R300 to R302: the 8-bit laws widened to 16 bits; H never changes. -/
def Obligations.Word16Flags : Prop :=
  ∀ (cc : Byte) (a b : Word),
    (Flags.opAdd16 cc a b).1 = BitVec.ofNat 16 (a.toNat + b.toNat) ∧
    getCc .c (Flags.opAdd16 cc a b).2 = decide (65536 ≤ a.toNat + b.toNat) ∧
    getCc .v (Flags.opAdd16 cc a b).2 = decide (a.toInt + b.toInt < -32768 ∨ 32767 < a.toInt + b.toInt) ∧
    (Flags.opSub16 cc a b).1 = BitVec.ofInt 16 (a.toInt - b.toInt) ∧
    getCc .c (Flags.opSub16 cc a b).2 = decide (a.toNat < b.toNat) ∧
    getCc .v (Flags.opSub16 cc a b).2 = decide (a.toInt - b.toInt < -32768 ∨ 32767 < a.toInt - b.toInt) ∧
    (Flags.opLd16 cc a).1 = a ∧ getCc .v (Flags.opLd16 cc a).2 = false ∧
    getCc .c (Flags.opLd16 cc a).2 = getCc .c cc ∧
    ∀ q ∈ [Flags.opAdd16 cc a b, Flags.opSub16 cc a b, Flags.opLd16 cc a],
      getCc .n q.2 = q.1.getLsbD 15 ∧ getCc .z q.2 = (q.1 == 0#16) ∧ q.2 &&& 0xF0#8 = cc &&& 0xF0#8

/-- R329: DAA's table, with A's nibbles and H and C as they stand before. -/
def Obligations.DaaFlags : Prop :=
  ∀ cc a : Byte,
    let lo := if getCc .h cc = true ∨ 9 < a.toNat % 16 then 6 else 0
    let hi := if getCc .c cc = true ∨ 9 < a.toNat / 16 ∨ (8 < a.toNat / 16 ∧ 9 < a.toNat % 16) then 96 else 0
    let t := a.toNat + lo + hi
    let q := Flags.opDaa cc a
    q.1 = BitVec.ofNat 8 t ∧ getCc .n q.2 = q.1.getLsbD 7 ∧ getCc .z q.2 = (q.1 == 0#8) ∧ getCc .v q.2 = false ∧
    getCc .c q.2 = (getCc .c cc || decide (256 ≤ t)) ∧ q.2 &&& 0xF0#8 = cc &&& 0xF0#8

/-! ### 40_rmw8.md -/

/-- R212: the read-modify-write instructions on memory; R241: TST reads, passes two fillers and writes only flags. -/
def Obligations.RmwMemory : Prop :=
  (∀ (i : MemOp → Instr) (op : Byte → Byte → Byte × Byte),
    (i, op) ∈ [(Instr.neg, Flags.opNeg), (Instr.negDup, Flags.opNeg), (Instr.negcom, Flags.opNegcom),
      (Instr.com, Flags.opCom), (Instr.lsr, Flags.opLsr), (Instr.lsrDup, Flags.opLsr), (Instr.ror, Flags.opRor),
      (Instr.asr, Flags.opAsr), (Instr.asl, Flags.opAsl), (Instr.rol, Flags.opRol), (Instr.dec, Flags.opDec),
      (Instr.decDup, Flags.opDec), (Instr.inc, Flags.opInc), (Instr.clr, Flags.opClr)] →
    ∀ (m : MemOp) (s : State), s.Quiet →
      let ea := eaOf m s
      let q := op s.cc (s.byteAt ea)
      exec (i m) s = .next
        { ((eaRegs m s).after (eaBus m s ++ [s.look ea, s.fill, .write ea q.1])).done with
          cc := q.2, mem := s.mem.write ea.toNat q.1 }) ∧
  (∀ (m : MemOp) (s : State), s.Quiet →
    exec (.tst m) s = .next
      { ((eaRegs m s).after (eaBus m s ++ [s.look (eaOf m s), s.fill, s.fill])).done with
        cc := (Flags.opTst s.cc (s.byteAt (eaOf m s))).2 })

/-- R213: the accumulator forms, on A and on B; the other accumulator is unchanged. -/
def Obligations.AccumulatorInherent : Prop :=
  ∀ (ia ib : Instr) (op : Byte → Byte → Byte × Byte),
    (ia, ib, op) ∈ [(Instr.nega, Instr.negb, Flags.opNeg), (.negaDup, .negbDup, Flags.opNeg),
      (.negcoma, .negcomb, Flags.opNegcom), (.coma, .comb, Flags.opCom), (.lsra, .lsrb, Flags.opLsr),
      (.lsraDup, .lsrbDup, Flags.opLsr), (.rora, .rorb, Flags.opRor), (.asra, .asrb, Flags.opAsr),
      (.asla, .aslb, Flags.opAsl), (.rola, .rolb, Flags.opRol), (.deca, .decb, Flags.opDec),
      (.decaDup, .decbDup, Flags.opDec), (.inca, .incb, Flags.opInc), (.clra, .clrb, Flags.opClr),
      (.clraDup, .clrbDup, Flags.opClr), (.tsta, .tstb, Flags.opTst)] →
    ∀ s : State, s.Quiet →
      exec ia s = .next { (s.after [s.look s.pc]).done with a := (op s.cc s.a).1, cc := (op s.cc s.a).2 } ∧
      exec ib s = .next { (s.after [s.look s.pc]).done with b := (op s.cc s.b).1, cc := (op s.cc s.b).2 }

/-! ### 41_acc8.md -/

/-- R268, R270 to R291: the two-operand instructions write their accumulator and CC; CMP and BIT write CC only. -/
def Obligations.Accumulator8 : Prop :=
  ∀ (o : Src8) (s : State), s.Quiet →
    let v := src8Value o s
    let t := ((src8Regs o s).after (src8Bus o s)).done
    (∀ (ia ib : Src8 → Instr) (op : Byte → Byte → Byte → Byte × Byte),
      (ia, ib, op) ∈ [(Instr.suba, Instr.subb, Flags.opSub8), (.sbca, .sbcb, Flags.opSbc8), (.anda, .andb, Flags.opAnd8),
        (.lda, .ldb, fun cc _ b => Flags.opLd8 cc b), (.eora, .eorb, Flags.opEor8), (.adca, .adcb, Flags.opAdc8),
        (.ora, .orb, Flags.opOr8), (.adda, .addb, Flags.opAdd8)] →
      exec (ia o) s = .next { t with a := (op s.cc s.a v).1, cc := (op s.cc s.a v).2 } ∧
      exec (ib o) s = .next { t with b := (op s.cc s.b v).1, cc := (op s.cc s.b v).2 }) ∧
    (∀ (ia ib : Src8 → Instr) (op : Byte → Byte → Byte → Byte × Byte),
      (ia, ib, op) ∈ [(Instr.cmpa, Instr.cmpb, Flags.opSub8), (.bita, .bitb, Flags.opAnd8)] →
      exec (ia o) s = .next { t with cc := (op s.cc s.a v).2 } ∧
      exec (ib o) s = .next { t with cc := (op s.cc s.b v).2 })

/-- R269, R282, R283: STA and STB. -/
def Obligations.Store8 : Prop :=
  ∀ (m : MemOp) (s : State), s.Quiet →
    let ea := eaOf m s
    exec (.sta m) s = .next { ((eaRegs m s).after (eaBus m s ++ [.write ea s.a])).done with
      cc := (Flags.opLd8 s.cc s.a).2, mem := s.mem.write ea.toNat s.a } ∧
    exec (.stb m) s = .next { ((eaRegs m s).after (eaBus m s ++ [.write ea s.b])).done with
      cc := (Flags.opLd8 s.cc s.b).2, mem := s.mem.write ea.toNat s.b }

/-- R292: DISCARD sets N, clears Z and V, and does nothing else. -/
def Obligations.Discard : Prop :=
  ∀ (op : DiscardOp) (v : Byte) (s : State), s.Quiet →
    exec (.discard op v) s = .next { s.done with cc := (s.cc &&& 0xF1#8) ||| 0x08#8 }

/-! ### 42_reg16.md -/

/-- R304, R305: ADDD and SUBD. -/
def Obligations.ArithmeticD : Prop :=
  ∀ (i : Src16 → Instr) (op : Byte → Word → Word → Word × Byte),
    (i, op) ∈ [(Instr.addd, Flags.opAdd16), (Instr.subd, Flags.opSub16)] →
    ∀ (o : Src16) (s : State), s.Quiet →
      let q := op s.cc (joinBytes s.a s.b) (src16Value o s)
      exec (i o) s = .next { ((src16Regs o s).after (src16Bus o s ++ [s.fill])).done with
        a := hiByte q.1, b := loByte q.1, cc := q.2 }

/-- R306 to R310: the compares read the register after the operand's register update and write flags only. -/
def Obligations.Compare16 : Prop :=
  ∀ (i : Src16 → Instr) (r : State → Word),
    (i, r) ∈ [(Instr.cmpd, fun s => joinBytes s.a s.b), (.cmpx, State.x), (.cmpy, State.y), (.cmpu, State.u),
      (.cmps, State.s)] →
    ∀ (o : Src16) (s : State), s.Quiet →
      exec (i o) s = .next { ((src16Regs o s).after (src16Bus o s ++ [s.fill])).done with
        cc := (Flags.opSub16 s.cc (r (src16Regs o s)) (src16Value o s)).2 }

/-- R311 to R315: the loads; the loaded value wins over an auto-increment of the same register, and LDS arms NMI. -/
def Obligations.Load16 : Prop :=
  ∀ (o : Src16) (s : State), s.Quiet →
    let t := ((src16Regs o s).after (src16Bus o s)).done
    let v := src16Value o s
    let cc := (Flags.opLd16 s.cc v).2
    exec (.ldd o) s = .next { t with a := hiByte v, b := loByte v, cc := cc } ∧
    exec (.ldx o) s = .next { t with x := v, cc := cc } ∧
    exec (.ldy o) s = .next { t with y := v, cc := cc } ∧
    exec (.ldu o) s = .next { t with u := v, cc := cc } ∧
    exec (.lds o) s = .next { t with s := v, nmiArmed := true, cc := cc }

/-- R303, R316 to R320: the 16-bit stores. The flags are those of the register before the operand's register update
(`op_ld16(R)` stands before `store16`, R611); the word stored, high byte first, is the register after it (R129). -/
def Obligations.Store16 : Prop :=
  ∀ (i : MemOp → Instr) (r : State → Word),
    (i, r) ∈ [(Instr.std, fun s => joinBytes s.a s.b), (.stx, State.x), (.sty, State.y), (.stu, State.u),
      (.sts, State.s)] →
    ∀ (m : MemOp) (s : State), s.Quiet →
      let ea := eaOf m s
      let v := r (eaRegs m s)
      exec (i m) s = .next
        { ((eaRegs m s).after (eaBus m s ++ [.write ea (hiByte v), .write (ea + 1#16) (loByte v)])).done with
          cc := (Flags.opLd16 s.cc (r s)).2,
          mem := (s.mem.write ea.toNat (hiByte v)).write (ea + 1#16).toNat (loByte v) }

/-- R321: STX*# and STU*# under both values of `ILLEGAL_UNCERTAIN`. -/
def Obligations.IllegalImmediateStores : Prop :=
  ∀ (i : Instr) (r : State → Word), (i, r) ∈ [(Instr.stxImm, State.x), (Instr.stuImm, State.u)] →
    ∀ s : State, s.Quiet →
      (s.params.illegalUncertain = .asSpecified →
        exec i s = .next { (s.after [s.look s.pc, .write (s.pc + 1#16) (loByte (r s))]).done with
          pc := s.pc + 2#16, cc := (s.cc &&& 0xF1#8) ||| 0x08#8,
          mem := s.mem.write (s.pc + 1#16).toNat (loByte (r s)) }) ∧
      (s.params.illegalUncertain = .refuse → exec i s = .refused .illegalUncertain)

/-- R321, R355: with `ILLEGAL_UNCERTAIN = REFUSE` the three opcodes are refused once the opcode byte is fetched, whatever
the host would do in a later callout: no further byte is fetched. -/
def Obligations.IllegalRefusedAtOpcode : Prop :=
  ∀ (s : State) (later : List (List HostMove)), s.phase = .nextInstruction → s.hostFault = none →
    s.params.illegalUncertain = .refuse → s.byteAt s.pc ∈ [0x38#8, 0x8F#8, 0xCF#8] → s.script = [] :: later →
    step s = .refused .illegalUncertain

/-- R322 to R325: LEAX and LEAY write Z, LEAS and LEAU no flag; LEAS arms NMI. -/
def Obligations.LoadEffectiveAddress : Prop :=
  ∀ (x : Indexed) (s : State), s.Quiet →
    let t := ((formRegs x s).after (indexedBus x s ++ [s.fill])).done
    let ea := indexedEa x s
    exec (.leax x) s = .next { t with x := ea, cc := setCc .z (ea == 0#16) s.cc } ∧
    exec (.leay x) s = .next { t with y := ea, cc := setCc .z (ea == 0#16) s.cc } ∧
    exec (.leas x) s = .next { t with s := ea, nmiArmed := true } ∧
    exec (.leau x) s = .next { t with u := ea }

/-- R326 to R329: ABX, MUL, SEX and DAA. -/
def Obligations.RegisterArithmetic : Prop :=
  ∀ s : State, s.Quiet →
    exec .abx s = .next { (s.after [s.look s.pc, s.fill]).done with x := s.x + BitVec.ofNat 16 s.b.toNat } ∧
    (let d := BitVec.ofNat 16 (s.a.toNat * s.b.toNat)
     exec .mul s = .next { (s.after (s.look s.pc :: List.replicate 9 s.fill)).done with
       a := hiByte d, b := loByte d, cc := setCc .c (d.getLsbD 7) (setCc .z (d == 0#16) s.cc) }) ∧
    (let a : Byte := if s.b.getLsbD 7 then 0xFF#8 else 0x00#8
     exec .sex s = .next { (s.after [s.look s.pc]).done with
       a := a, cc := setCc .z (s.b == 0#8) (setCc .n (s.b.getLsbD 7) s.cc) }) ∧
    exec .daa s = .next { (s.after [s.look s.pc]).done with
      a := (Flags.opDaa s.cc s.a).1, cc := (Flags.opDaa s.cc s.a).2 }

/-! ### 43_transfer_stack.md -/

/-- R343 and R344 on a regular pair, and on any pair with `TFR_UNDEFINED = AS_XROAR`; with `REFUSE` a pair that is not
regular is refused (R340). -/
def Obligations.TransferExchange : Prop :=
  ∀ (r1 r2 : TReg) (s : State), s.Quiet →
    (regular r1 r2 = true ∨ s.params.tfrUndefined = .asXroar →
      exec (.tfr r1 r2) s = .next (tregWrite r2 (tregRead r1 s) (s.after (List.replicate 4 s.fill)).done) ∧
      exec (.exg r1 r2) s = .next (tregWrite r2 (tregRead r1 s)
        (tregWrite r1 (tregRead r2 s) (s.after (List.replicate 6 s.fill)).done))) ∧
    (regular r1 r2 = false → s.params.tfrUndefined = .refuse →
      exec (.tfr r1 r2) s = .refused .irregularTfr ∧ exec (.exg r1 r2) s = .refused .irregularExg)

/-- R341, R342: what each register code reads as, and what a write to each changes: CC is replaced whole, S arms NMI,
an undefined code reads as ones and discards what is written. That an 8-bit code always reads with R341's third column,
whatever the pair and the parameter, is the model's reading (log 20); a regular pair sees its low byte only. -/
def Obligations.TransferValues : Prop :=
  (∀ s : State, ∀ q ∈ [(TReg.d, joinBytes s.a s.b), (.x, s.x), (.y, s.y), (.u, s.u), (.s, s.s), (.pc, s.pc),
      (.a, joinBytes 0xFF#8 s.a), (.b, joinBytes 0xFF#8 s.b), (.cc, joinBytes s.cc s.cc), (.dp, joinBytes s.dp s.dp)],
    tregRead q.1 s = q.2) ∧
  (∀ (v : Word) (s : State), ∀ q ∈ [(TReg.d, { s with a := hiByte v, b := loByte v }), (.x, { s with x := v }),
      (.y, { s with y := v }), (.u, { s with u := v }), (.s, { s with s := v, nmiArmed := true }), (.pc, { s with pc := v }),
      (.a, { s with a := loByte v }), (.b, { s with b := loByte v }), (.cc, { s with cc := loByte v }),
      (.dp, { s with dp := loByte v })],
    tregWrite q.1 v s = q.2) ∧
  (∀ (r : TReg) (v : Word) (s : State), r ∈ [.undef6, .undef7, .undefC, .undefD, .undefE, .undefF] →
    tregRead r s = 0xFFFF#16 ∧ tregWrite r v s = s)

/-- R346 to R349: PSHS and PSHU, whose implicit decrements arm nothing; PULS and PULU, where pulling S from U arms
NMI. -/
def Obligations.PushPull : Prop :=
  ∀ (p : Byte) (s : State), s.Quiet →
    exec (.pshs p) s = .next (pushed .s p (s.after (List.replicate 3 s.fill))).done ∧
    exec (.pshu p) s = .next (pushed .u p (s.after (List.replicate 3 s.fill))).done ∧
    exec (.puls p) s = .next ((pulledS p (s.after [s.fill, s.fill])).after [s.fill]).done ∧
    exec (.pulu p) s = .next ((pulledU p (s.after [s.fill, s.fill])).after [s.fill]).done

/-- R347's round-trip law: PSHS P, any change of the registers but S and of nothing in memory, then PULS P restores
the registers P names, and S. PC is as PSHS left it: the address after the postbyte. -/
def Obligations.PushPullRoundTrip : Prop :=
  ∀ (p : Byte) (s t u : State), s.Quiet → exec (.pshs p) s = .next t →
    u.Quiet → u.mem = t.mem → u.s = t.s →
    ∃ v, exec (.puls p) u = .next v ∧ v.s = s.s ∧
      (p.getLsbD 0 = true → v.cc = s.cc) ∧ (p.getLsbD 1 = true → v.a = s.a) ∧ (p.getLsbD 2 = true → v.b = s.b) ∧
      (p.getLsbD 3 = true → v.dp = s.dp) ∧ (p.getLsbD 4 = true → v.x = s.x) ∧ (p.getLsbD 5 = true → v.y = s.y) ∧
      (p.getLsbD 6 = true → v.u = s.u) ∧ (p.getLsbD 7 = true → v.pc = s.pc)

/-- R350 to R355: ANDCC, ORCC, NOP, NOP*, CCSHIFT (by its formula: H is the old I, Z the old V, log 23), and
ANDCC* under both values of `ILLEGAL_UNCERTAIN`. -/
def Obligations.ConditionCodeInstructions : Prop :=
  ∀ (v : Byte) (s : State), s.Quiet →
    exec (.andcc v) s = .next { (s.after [s.fill]).done with cc := s.cc &&& v } ∧
    exec (.orcc v) s = .next { (s.after [s.fill]).done with cc := s.cc ||| v } ∧
    exec .nop s = .next (s.after [s.look s.pc]).done ∧
    exec .nopDup s = .next (s.after [s.look s.pc]).done ∧
    exec .ccshift s = .next { (s.after [s.look s.pc, s.fill]).done with
      cc := (if getCc .i s.cc then 0x20#8 else 0#8) ||| (if getCc .v s.cc then 0x04#8 else 0#8) } ∧
    (s.params.illegalUncertain = .asSpecified →
      exec (.andccDup v) s = .next { (s.after [s.fill, s.fill]).done with cc := s.cc &&& v }) ∧
    (s.params.illegalUncertain = .refuse → exec (.andccDup v) s = .refused .illegalUncertain)

/-! ### 44_control.md -/

/-- R360, R361, R380: the short branches take 3 cycles, taken or not; of the long ones a taken one has one filler more.
No flag is written. -/
def Obligations.Branches : Prop :=
  ∀ s : State, s.Quiet →
    let n := getCc .n s.cc
    let z := getCc .z s.cc
    let v := getCc .v s.cc
    let c := getCc .c s.cc
    (∀ (i : Byte → Instr) (taken : Bool),
      (i, taken) ∈ [(Instr.bra, true), (.brn, false), (.bhi, !(c || z)), (.bls, c || z), (.bcc, !c), (.bcs, c),
        (.bne, !z), (.beq, z), (.bvc, !v), (.bvs, v), (.bpl, !n), (.bmi, n), (.bge, n == v), (.blt, n != v),
        (.bgt, !z && n == v), (.ble, z || n != v)] →
      ∀ off : Byte, exec (i off) s = .next { (s.after [s.fill]).done with
        pc := if taken then s.pc + BitVec.ofInt 16 off.toInt else s.pc }) ∧
    (∀ (i : Word → Instr) (taken : Bool),
      (i, taken) ∈ [(Instr.lbrn, false), (.lbhi, !(c || z)), (.lbls, c || z), (.lbcc, !c), (.lbcs, c),
        (.lbne, !z), (.lbeq, z), (.lbvc, !v), (.lbvs, v), (.lbpl, !n), (.lbmi, n), (.lbge, n == v), (.lblt, n != v),
        (.lbgt, !z && n == v), (.lble, z || n != v)] →
      ∀ off : Word, exec (i off) s = .next { (s.after (if taken then [s.fill, s.fill] else [s.fill])).done with
        pc := if taken then s.pc + off else s.pc })

/-- R378, R397, R399: LBRA, JMP and RTS. -/
def Obligations.Jumps : Prop :=
  ∀ (off : Word) (m : MemOp) (s : State), s.Quiet →
    exec (.lbra off) s = .next { (s.after [s.fill, s.fill]).done with pc := s.pc + off } ∧
    exec (.jmp m) s = .next { ((eaRegs m s).after (eaBus m s)).done with pc := eaOf m s } ∧
    exec .rts s = .next { (s.after [s.look s.pc, s.look s.s, s.look (s.s + 1#16), s.fill]).done with
      pc := s.wordAt s.s, s := s.s + 2#16 }

/-- R379, R396, R398: LBSR, BSR and JSR push the address after the instruction, low byte first, with a dummy read at
the target; JSR's address is made before the push. -/
def Obligations.Calls : Prop :=
  ∀ (i : Instr) (s r : State) (pre : List Obs) (target : Word), s.Quiet →
    ((∃ off, i = .lbsr off ∧ r = s ∧ pre = [s.fill, s.fill] ∧ target = s.pc + off) ∨
     (∃ off, i = .bsr off ∧ r = s ∧ pre = [s.fill] ∧ target = s.pc + sext8 off) ∨
     (∃ m, i = .jsr m ∧ r = eaRegs m s ∧ pre = eaBus m s ∧ target = eaOf m s)) →
    exec i s = .next
      { (r.after (pre ++ [s.look target, s.fill, .write (r.s - 1#16) (loByte s.pc),
          .write (r.s - 2#16) (hiByte s.pc)])).done with
        s := r.s - 2#16, pc := target,
        mem := (s.mem.write (r.s - 1#16).toNat (loByte s.pc)).write (r.s - 2#16).toNat (hiByte s.pc) }

/-! ### 45_system.md -/

/-- R400 to R402, R406: SWI, SWI2, SWI3 and RESET*: E is set before the frame is pushed, then the masks and the
vector. -/
def Obligations.SoftwareInterrupts : Prop :=
  ∀ (i : Instr) (v : Word) (m : Byte),
    (i, v, m) ∈ [(Instr.swi, 0xFFFA#16, 0x50#8), (.swi2, 0xFFF4#16, 0#8), (.swi3, 0xFFF2#16, 0#8),
      (.resetIll, 0xFFFE#16, 0x50#8)] →
    ∀ s : State, s.Quiet →
      exec i s = .next
        (entered v m (pushed .s 0xFF#8 { s.after [s.look s.pc, s.fill] with cc := s.cc ||| 0x80#8 })).done

/-- R403: RTI pulls CC, and by its E the rest of the entire frame or PC alone. -/
def Obligations.ReturnFromInterrupt : Prop :=
  ∀ s : State, s.Quiet →
    let t := s.after [s.look s.pc]
    exec .rti s = .next
      ((pulledS (if (s.byteAt s.s).getLsbD 7 then 0xFF#8 else 0x81#8) t).after [s.fill]).done

/-- A software interrupt followed by RTI in its handler gives back every register of the frame, S, and CC with E. -/
def Obligations.SwiRtiRoundTrip : Prop :=
  ∀ (i : Instr), i ∈ [Instr.swi, .swi2, .swi3, .resetIll] →
    ∀ s t : State, s.Quiet → exec i s = .next t →
      ∃ u, exec .rti t = .next u ∧ u.cc = s.cc ||| 0x80#8 ∧ u.a = s.a ∧ u.b = s.b ∧ u.dp = s.dp ∧ u.x = s.x ∧
        u.y = s.y ∧ u.u = s.u ∧ u.pc = s.pc ∧ u.s = s.s ∧ u.nmiArmed = s.nmiArmed

/-- R404: CWAI clears CC bits, sets E, pushes the entire frame and waits in DISPATCH_IRQ. -/
def Obligations.Cwai : Prop :=
  ∀ (n : Byte) (s : State), s.Quiet →
    exec (.cwai n) s = .next
      { pushed .s 0xFF#8 { s.after [s.look s.pc, s.fill] with cc := (s.cc &&& n) ||| 0x80#8 } with
        viaCwai := true, phase := .dispatchIrq }

/-- R405, R407, R408, R409: SYNC, the lockup opcodes, the prefixes, and an undefined byte of page 2 or 3 under both
values of `PAGE23_UNDEFINED`, set the execution state and change no register. -/
def Obligations.StateSetters : Prop :=
  ∀ (op : HcfOp) (b : Byte) (s : State), s.Quiet →
    exec .sync s = .next { s.after [s.look s.pc, s.fill] with phase := .sync } ∧
    exec (.hcf op) s = .next { s with phase := .hcf } ∧
    exec .page2Prefix s = .next { s with phase := .page2 } ∧
    exec .page3Prefix s = .next { s with phase := .page3 } ∧
    (s.params.page23Undefined = .hcf →
      exec (.page2Undefined b) s = .next { s with phase := .hcf } ∧
      exec (.page3Undefined b) s = .next { s with phase := .hcf }) ∧
    (s.params.page23Undefined = .refuse →
      exec (.page2Undefined b) s = .refused .page23Undefined ∧ exec (.page3Undefined b) s = .refused .page23Undefined)

/-! ### The event scheduler -/

/-- R551, R559: `queue` puts an event that is not queued before the first entry with a later deadline and after every
other, marks it, and refuses a double queue and a deadline out of range. Which pairs R559's range is tested on (the
deadline against `cycle` and against every entry of the list) is the model's reading (log 12). -/
def Obligations.QueueEvent : Prop :=
  ∀ (sc : Sched) (cycle : Tick) (l : ListId) (e : EventId) (ev : Event), sc.find e = some ev →
    (ev.queued = true → sc.queue cycle l e = .error .doubleQueue) ∧
    (ev.queued = false →
      ((ev.atTick - cycle).toInt.natAbs ≤ 2147483647 ∧
        ∀ x ∈ sc.getList l, (ev.atTick - sc.deadline x).toInt.natAbs ≤ 2147483647) →
      ∃ sc' before later, sc.queue cycle l e = .ok sc' ∧ sc.getList l = before ++ later ∧
        sc'.getList l = before ++ e :: later ∧
        (∀ x ∈ before, 0 ≤ (ev.atTick - sc.deadline x).toInt) ∧
        (∀ x, later.head? = some x → (ev.atTick - sc.deadline x).toInt < 0) ∧
        sc'.find e = some { ev with queued := true, list := some l } ∧
        (∀ k, k ≠ e → sc'.find k = sc.find k) ∧
        (∀ k, k ≠ l → sc'.getList k = sc.getList k)) ∧
    (ev.queued = false →
      ¬ ((ev.atTick - cycle).toInt.natAbs ≤ 2147483647 ∧
        ∀ x ∈ sc.getList l, (ev.atTick - sc.deadline x).toInt.natAbs ≤ 2147483647) →
      sc.queue cycle l e = .error .deadlineOutOfRange)

/-- R552: `dequeue` takes an event off its list and clears its flag, keeping its deadline and its callback, and is a
no-op on an event that is not queued, so also the second time; R557: the rest of each list keeps its order, and no other
event is touched. -/
def Obligations.DequeueEvent : Prop :=
  ∀ (sc : Sched) (e : EventId), sc.consistent →
    (∀ l, (sc.dequeue e).getList l = (sc.getList l).filter (· ≠ e)) ∧
    (∀ ev, sc.find e = some ev → (sc.dequeue e).find e = some { ev with queued := false, list := none }) ∧
    (∀ x, x ≠ e → (sc.dequeue e).find x = sc.find x) ∧
    ((∀ ev, sc.find e = some ev → ev.queued = false) → sc.dequeue e = sc) ∧
    (sc.dequeue e).dequeue e = sc.dequeue e

/-- R553, R557: `dispatch_next` between steps, the host making no move in the callback: on an empty list nothing; else
the head is popped, its flag cleared and its callback called, and the other list is untouched. -/
def Obligations.DispatchNext : Prop :=
  ∀ (s : State) (l : ListId), s.Quiet → s.sched.consistent →
    (s.sched.getList l = [] → hostMove (.dispatchNext l) s = .next s) ∧
    (∀ e es, s.sched.getList l = e :: es → ∃ ev t, s.sched.find e = some ev ∧
      hostMove (.dispatchNext l) s = .next t ∧
      t = { s with sched := t.sched, trace := .callback e ev.callback :: s.trace } ∧
      t.sched.getList l = es ∧ t.sched.find e = some { ev with queued := false, list := none } ∧
      (∀ k, k ≠ l → t.sched.getList k = s.sched.getList k) ∧ (∀ x, x ≠ e → t.sched.find x = s.sched.find x))

/-- R541, R542, R560: from inside a callout `run()`, `jump(pc)` and `reset()` break a precondition: a step whose first
callout has one as its first move ends in that fault, whatever instruction it runs and whatever else the host does. The
states are all those whose step makes a callout. That the step goes on to its end, and then ends in the fault even where
it would be refused, is the model's choice (log 10). -/
def Obligations.CalloutPreconditions : Prop :=
  ∀ (m : HostMove) (f : Fault) (more : List HostMove) (rest : List (List HostMove)) (s : State),
    (m = .run ∧ f = .reentrantRun ∨ (∃ pc, m = .jump pc) ∧ f = .jumpInsideStep ∨ m = .reset ∧ f = .resetInsideStep) →
    s.hostFault = none → s.script = (m :: more) :: rest →
    (s.phase ∈ [.resetCheckHalt, .nextInstruction, .page2, .page3, .sync, .cwaiCheckHalt, .hcf] ∨
      s.phase ∈ [.labelA, .syncCheckHalt] ∧ s.halt = true ∨
      s.phase = .labelB ∧ s.select ≠ none ∨
      s.phase = .dispatchIrq ∧ (if s.viaCwai then s.select else s.irqSel) ≠ none) →
    step s = .fault f
end

