-- ==== Sys2Proof/Laws/State.lean ====
section
/-! SUPPORT. What each named update of State leaves in each field: one lemma per field per update, so that no proof
unfolds an update. -/

namespace Sys2Proof.Machine


/-! ### A bus cycle -/

@[simp] theorem tick_a (o : Obs) (s : State) : (s.tick o).a = s.a := rfl
@[simp] theorem tick_b (o : Obs) (s : State) : (s.tick o).b = s.b := rfl
@[simp] theorem tick_x (o : Obs) (s : State) : (s.tick o).x = s.x := rfl
@[simp] theorem tick_y (o : Obs) (s : State) : (s.tick o).y = s.y := rfl
@[simp] theorem tick_u (o : Obs) (s : State) : (s.tick o).u = s.u := rfl
@[simp] theorem tick_s (o : Obs) (s : State) : (s.tick o).s = s.s := rfl
@[simp] theorem tick_pc (o : Obs) (s : State) : (s.tick o).pc = s.pc := rfl
@[simp] theorem tick_dp (o : Obs) (s : State) : (s.tick o).dp = s.dp := rfl
@[simp] theorem tick_cc (o : Obs) (s : State) : (s.tick o).cc = s.cc := rfl
@[simp] theorem tick_nmi (o : Obs) (s : State) : (s.tick o).nmi = s.nmi := rfl
@[simp] theorem tick_firq (o : Obs) (s : State) : (s.tick o).firq = s.firq := rfl
@[simp] theorem tick_irq (o : Obs) (s : State) : (s.tick o).irq = s.irq := rfl
@[simp] theorem tick_nmiArmed (o : Obs) (s : State) : (s.tick o).nmiArmed = s.nmiArmed := rfl
@[simp] theorem tick_nmiRequest (o : Obs) (s : State) : (s.tick o).nmiRequest = s.nmiRequest := rfl
@[simp] theorem tick_halt (o : Obs) (s : State) : (s.tick o).halt = s.halt := rfl
@[simp] theorem tick_cycle (o : Obs) (s : State) : (s.tick o).cycle = s.cycle + 1#32 := rfl
@[simp] theorem tick_phase (o : Obs) (s : State) : (s.tick o).phase = s.phase := rfl
@[simp] theorem tick_viaCwai (o : Obs) (s : State) : (s.tick o).viaCwai = s.viaCwai := rfl
@[simp] theorem tick_irqSel (o : Obs) (s : State) : (s.tick o).irqSel = s.irqSel := rfl
@[simp] theorem tick_opcode (o : Obs) (s : State) : (s.tick o).opcode = s.opcode := rfl
@[simp] theorem tick_postbyte (o : Obs) (s : State) : (s.tick o).postbyte = s.postbyte := rfl
@[simp] theorem tick_operand (o : Obs) (s : State) : (s.tick o).operand = s.operand := rfl
@[simp] theorem tick_running (o : Obs) (s : State) : (s.tick o).running = s.running := rfl
@[simp] theorem tick_sched (o : Obs) (s : State) : (s.tick o).sched = s.sched := rfl
@[simp] theorem tick_mem (o : Obs) (s : State) : (s.tick o).mem = s.mem := rfl
@[simp] theorem tick_params (o : Obs) (s : State) : (s.tick o).params = s.params := rfl
@[simp] theorem tick_script (o : Obs) (s : State) : (s.tick o).script = s.script := rfl
@[simp] theorem tick_hostFault (o : Obs) (s : State) : (s.tick o).hostFault = s.hostFault := rfl
@[simp] theorem tick_freeCount (o : Obs) (s : State) : (s.tick o).freeCount = s.freeCount := rfl
@[simp] theorem tick_trace (o : Obs) (s : State) : (s.tick o).trace = o :: s.trace := rfl

/-! ### A sequence of bus cycles -/

@[simp] theorem after_a (os : List Obs) (s : State) : (s.after os).a = s.a := rfl
@[simp] theorem after_b (os : List Obs) (s : State) : (s.after os).b = s.b := rfl
@[simp] theorem after_x (os : List Obs) (s : State) : (s.after os).x = s.x := rfl
@[simp] theorem after_y (os : List Obs) (s : State) : (s.after os).y = s.y := rfl
@[simp] theorem after_u (os : List Obs) (s : State) : (s.after os).u = s.u := rfl
@[simp] theorem after_s (os : List Obs) (s : State) : (s.after os).s = s.s := rfl
@[simp] theorem after_pc (os : List Obs) (s : State) : (s.after os).pc = s.pc := rfl
@[simp] theorem after_dp (os : List Obs) (s : State) : (s.after os).dp = s.dp := rfl
@[simp] theorem after_cc (os : List Obs) (s : State) : (s.after os).cc = s.cc := rfl
@[simp] theorem after_nmi (os : List Obs) (s : State) : (s.after os).nmi = s.nmi := rfl
@[simp] theorem after_firq (os : List Obs) (s : State) : (s.after os).firq = s.firq := rfl
@[simp] theorem after_irq (os : List Obs) (s : State) : (s.after os).irq = s.irq := rfl
@[simp] theorem after_nmiArmed (os : List Obs) (s : State) : (s.after os).nmiArmed = s.nmiArmed := rfl
@[simp] theorem after_nmiRequest (os : List Obs) (s : State) : (s.after os).nmiRequest = s.nmiRequest := rfl
@[simp] theorem after_halt (os : List Obs) (s : State) : (s.after os).halt = s.halt := rfl
@[simp] theorem after_cycle (os : List Obs) (s : State) : (s.after os).cycle = s.cycle + BitVec.ofNat 32 os.length := rfl
@[simp] theorem after_phase (os : List Obs) (s : State) : (s.after os).phase = s.phase := rfl
@[simp] theorem after_viaCwai (os : List Obs) (s : State) : (s.after os).viaCwai = s.viaCwai := rfl
@[simp] theorem after_irqSel (os : List Obs) (s : State) : (s.after os).irqSel = s.irqSel := rfl
@[simp] theorem after_opcode (os : List Obs) (s : State) : (s.after os).opcode = s.opcode := rfl
@[simp] theorem after_postbyte (os : List Obs) (s : State) : (s.after os).postbyte = s.postbyte := rfl
@[simp] theorem after_operand (os : List Obs) (s : State) : (s.after os).operand = s.operand := rfl
@[simp] theorem after_running (os : List Obs) (s : State) : (s.after os).running = s.running := rfl
@[simp] theorem after_sched (os : List Obs) (s : State) : (s.after os).sched = s.sched := rfl
@[simp] theorem after_mem (os : List Obs) (s : State) : (s.after os).mem = s.mem := rfl
@[simp] theorem after_params (os : List Obs) (s : State) : (s.after os).params = s.params := rfl
@[simp] theorem after_script (os : List Obs) (s : State) : (s.after os).script = s.script := rfl
@[simp] theorem after_hostFault (os : List Obs) (s : State) : (s.after os).hostFault = s.hostFault := rfl
@[simp] theorem after_freeCount (os : List Obs) (s : State) : (s.after os).freeCount = s.freeCount := rfl
@[simp] theorem after_trace (os : List Obs) (s : State) : (s.after os).trace = os.reverse ++ s.trace := rfl

/-! ### A change of execution state -/

@[simp] theorem goto_a (p : Phase) (s : State) : (s.goto p).a = s.a := rfl
@[simp] theorem goto_b (p : Phase) (s : State) : (s.goto p).b = s.b := rfl
@[simp] theorem goto_x (p : Phase) (s : State) : (s.goto p).x = s.x := rfl
@[simp] theorem goto_y (p : Phase) (s : State) : (s.goto p).y = s.y := rfl
@[simp] theorem goto_u (p : Phase) (s : State) : (s.goto p).u = s.u := rfl
@[simp] theorem goto_s (p : Phase) (s : State) : (s.goto p).s = s.s := rfl
@[simp] theorem goto_pc (p : Phase) (s : State) : (s.goto p).pc = s.pc := rfl
@[simp] theorem goto_dp (p : Phase) (s : State) : (s.goto p).dp = s.dp := rfl
@[simp] theorem goto_cc (p : Phase) (s : State) : (s.goto p).cc = s.cc := rfl
@[simp] theorem goto_nmi (p : Phase) (s : State) : (s.goto p).nmi = s.nmi := rfl
@[simp] theorem goto_firq (p : Phase) (s : State) : (s.goto p).firq = s.firq := rfl
@[simp] theorem goto_irq (p : Phase) (s : State) : (s.goto p).irq = s.irq := rfl
@[simp] theorem goto_nmiArmed (p : Phase) (s : State) : (s.goto p).nmiArmed = s.nmiArmed := rfl
@[simp] theorem goto_nmiRequest (p : Phase) (s : State) : (s.goto p).nmiRequest = s.nmiRequest := rfl
@[simp] theorem goto_halt (p : Phase) (s : State) : (s.goto p).halt = s.halt := rfl
@[simp] theorem goto_cycle (p : Phase) (s : State) : (s.goto p).cycle = s.cycle := rfl
@[simp] theorem goto_phase (p : Phase) (s : State) : (s.goto p).phase = p := rfl
@[simp] theorem goto_viaCwai (p : Phase) (s : State) : (s.goto p).viaCwai = s.viaCwai := rfl
@[simp] theorem goto_irqSel (p : Phase) (s : State) : (s.goto p).irqSel = s.irqSel := rfl
@[simp] theorem goto_opcode (p : Phase) (s : State) : (s.goto p).opcode = s.opcode := rfl
@[simp] theorem goto_postbyte (p : Phase) (s : State) : (s.goto p).postbyte = s.postbyte := rfl
@[simp] theorem goto_operand (p : Phase) (s : State) : (s.goto p).operand = s.operand := rfl
@[simp] theorem goto_running (p : Phase) (s : State) : (s.goto p).running = s.running := rfl
@[simp] theorem goto_sched (p : Phase) (s : State) : (s.goto p).sched = s.sched := rfl
@[simp] theorem goto_mem (p : Phase) (s : State) : (s.goto p).mem = s.mem := rfl
@[simp] theorem goto_params (p : Phase) (s : State) : (s.goto p).params = s.params := rfl
@[simp] theorem goto_script (p : Phase) (s : State) : (s.goto p).script = s.script := rfl
@[simp] theorem goto_hostFault (p : Phase) (s : State) : (s.goto p).hostFault = s.hostFault := rfl
@[simp] theorem goto_freeCount (p : Phase) (s : State) : (s.goto p).freeCount = s.freeCount := rfl
@[simp] theorem goto_trace (p : Phase) (s : State) : (s.goto p).trace = s.trace := rfl

/-! ### The end of an instruction -/

@[simp] theorem done_a (s : State) : (s.done).a = s.a := rfl
@[simp] theorem done_b (s : State) : (s.done).b = s.b := rfl
@[simp] theorem done_x (s : State) : (s.done).x = s.x := rfl
@[simp] theorem done_y (s : State) : (s.done).y = s.y := rfl
@[simp] theorem done_u (s : State) : (s.done).u = s.u := rfl
@[simp] theorem done_s (s : State) : (s.done).s = s.s := rfl
@[simp] theorem done_pc (s : State) : (s.done).pc = s.pc := rfl
@[simp] theorem done_dp (s : State) : (s.done).dp = s.dp := rfl
@[simp] theorem done_cc (s : State) : (s.done).cc = s.cc := rfl
@[simp] theorem done_nmi (s : State) : (s.done).nmi = s.nmi := rfl
@[simp] theorem done_firq (s : State) : (s.done).firq = s.firq := rfl
@[simp] theorem done_irq (s : State) : (s.done).irq = s.irq := rfl
@[simp] theorem done_nmiArmed (s : State) : (s.done).nmiArmed = s.nmiArmed := rfl
@[simp] theorem done_nmiRequest (s : State) : (s.done).nmiRequest = s.nmiRequest := rfl
@[simp] theorem done_halt (s : State) : (s.done).halt = s.halt := rfl
@[simp] theorem done_cycle (s : State) : (s.done).cycle = s.cycle := rfl
@[simp] theorem done_phase (s : State) : (s.done).phase = .labelA := rfl
@[simp] theorem done_viaCwai (s : State) : (s.done).viaCwai = s.viaCwai := rfl
@[simp] theorem done_irqSel (s : State) : (s.done).irqSel = s.irqSel := rfl
@[simp] theorem done_opcode (s : State) : (s.done).opcode = s.opcode := rfl
@[simp] theorem done_postbyte (s : State) : (s.done).postbyte = s.postbyte := rfl
@[simp] theorem done_operand (s : State) : (s.done).operand = s.operand := rfl
@[simp] theorem done_running (s : State) : (s.done).running = s.running := rfl
@[simp] theorem done_sched (s : State) : (s.done).sched = s.sched := rfl
@[simp] theorem done_mem (s : State) : (s.done).mem = s.mem := rfl
@[simp] theorem done_params (s : State) : (s.done).params = s.params := rfl
@[simp] theorem done_script (s : State) : (s.done).script = s.script := rfl
@[simp] theorem done_hostFault (s : State) : (s.done).hostFault = s.hostFault := rfl
@[simp] theorem done_freeCount (s : State) : (s.done).freeCount = s.freeCount := rfl
@[simp] theorem done_trace (s : State) : (s.done).trace = .instructionPosthook :: s.trace := rfl

/-! ### D -/

@[simp] theorem setD_a (v : Word) (s : State) : (s.setD v).a = hiByte v := rfl
@[simp] theorem setD_b (v : Word) (s : State) : (s.setD v).b = loByte v := rfl
@[simp] theorem setD_x (v : Word) (s : State) : (s.setD v).x = s.x := rfl
@[simp] theorem setD_y (v : Word) (s : State) : (s.setD v).y = s.y := rfl
@[simp] theorem setD_u (v : Word) (s : State) : (s.setD v).u = s.u := rfl
@[simp] theorem setD_s (v : Word) (s : State) : (s.setD v).s = s.s := rfl
@[simp] theorem setD_pc (v : Word) (s : State) : (s.setD v).pc = s.pc := rfl
@[simp] theorem setD_dp (v : Word) (s : State) : (s.setD v).dp = s.dp := rfl
@[simp] theorem setD_cc (v : Word) (s : State) : (s.setD v).cc = s.cc := rfl
@[simp] theorem setD_nmi (v : Word) (s : State) : (s.setD v).nmi = s.nmi := rfl
@[simp] theorem setD_firq (v : Word) (s : State) : (s.setD v).firq = s.firq := rfl
@[simp] theorem setD_irq (v : Word) (s : State) : (s.setD v).irq = s.irq := rfl
@[simp] theorem setD_nmiArmed (v : Word) (s : State) : (s.setD v).nmiArmed = s.nmiArmed := rfl
@[simp] theorem setD_nmiRequest (v : Word) (s : State) : (s.setD v).nmiRequest = s.nmiRequest := rfl
@[simp] theorem setD_halt (v : Word) (s : State) : (s.setD v).halt = s.halt := rfl
@[simp] theorem setD_cycle (v : Word) (s : State) : (s.setD v).cycle = s.cycle := rfl
@[simp] theorem setD_phase (v : Word) (s : State) : (s.setD v).phase = s.phase := rfl
@[simp] theorem setD_viaCwai (v : Word) (s : State) : (s.setD v).viaCwai = s.viaCwai := rfl
@[simp] theorem setD_irqSel (v : Word) (s : State) : (s.setD v).irqSel = s.irqSel := rfl
@[simp] theorem setD_opcode (v : Word) (s : State) : (s.setD v).opcode = s.opcode := rfl
@[simp] theorem setD_postbyte (v : Word) (s : State) : (s.setD v).postbyte = s.postbyte := rfl
@[simp] theorem setD_operand (v : Word) (s : State) : (s.setD v).operand = s.operand := rfl
@[simp] theorem setD_running (v : Word) (s : State) : (s.setD v).running = s.running := rfl
@[simp] theorem setD_sched (v : Word) (s : State) : (s.setD v).sched = s.sched := rfl
@[simp] theorem setD_mem (v : Word) (s : State) : (s.setD v).mem = s.mem := rfl
@[simp] theorem setD_params (v : Word) (s : State) : (s.setD v).params = s.params := rfl
@[simp] theorem setD_script (v : Word) (s : State) : (s.setD v).script = s.script := rfl
@[simp] theorem setD_hostFault (v : Word) (s : State) : (s.setD v).hostFault = s.hostFault := rfl
@[simp] theorem setD_freeCount (v : Word) (s : State) : (s.setD v).freeCount = s.freeCount := rfl
@[simp] theorem setD_trace (v : Word) (s : State) : (s.setD v).trace = s.trace := rfl

/-! ### An explicit load of S -/

@[simp] theorem loadS_a (v : Word) (s : State) : (s.loadS v).a = s.a := rfl
@[simp] theorem loadS_b (v : Word) (s : State) : (s.loadS v).b = s.b := rfl
@[simp] theorem loadS_x (v : Word) (s : State) : (s.loadS v).x = s.x := rfl
@[simp] theorem loadS_y (v : Word) (s : State) : (s.loadS v).y = s.y := rfl
@[simp] theorem loadS_u (v : Word) (s : State) : (s.loadS v).u = s.u := rfl
@[simp] theorem loadS_s (v : Word) (s : State) : (s.loadS v).s = v := rfl
@[simp] theorem loadS_pc (v : Word) (s : State) : (s.loadS v).pc = s.pc := rfl
@[simp] theorem loadS_dp (v : Word) (s : State) : (s.loadS v).dp = s.dp := rfl
@[simp] theorem loadS_cc (v : Word) (s : State) : (s.loadS v).cc = s.cc := rfl
@[simp] theorem loadS_nmi (v : Word) (s : State) : (s.loadS v).nmi = s.nmi := rfl
@[simp] theorem loadS_firq (v : Word) (s : State) : (s.loadS v).firq = s.firq := rfl
@[simp] theorem loadS_irq (v : Word) (s : State) : (s.loadS v).irq = s.irq := rfl
@[simp] theorem loadS_nmiArmed (v : Word) (s : State) : (s.loadS v).nmiArmed = true := rfl
@[simp] theorem loadS_nmiRequest (v : Word) (s : State) : (s.loadS v).nmiRequest = s.nmiRequest := rfl
@[simp] theorem loadS_halt (v : Word) (s : State) : (s.loadS v).halt = s.halt := rfl
@[simp] theorem loadS_cycle (v : Word) (s : State) : (s.loadS v).cycle = s.cycle := rfl
@[simp] theorem loadS_phase (v : Word) (s : State) : (s.loadS v).phase = s.phase := rfl
@[simp] theorem loadS_viaCwai (v : Word) (s : State) : (s.loadS v).viaCwai = s.viaCwai := rfl
@[simp] theorem loadS_irqSel (v : Word) (s : State) : (s.loadS v).irqSel = s.irqSel := rfl
@[simp] theorem loadS_opcode (v : Word) (s : State) : (s.loadS v).opcode = s.opcode := rfl
@[simp] theorem loadS_postbyte (v : Word) (s : State) : (s.loadS v).postbyte = s.postbyte := rfl
@[simp] theorem loadS_operand (v : Word) (s : State) : (s.loadS v).operand = s.operand := rfl
@[simp] theorem loadS_running (v : Word) (s : State) : (s.loadS v).running = s.running := rfl
@[simp] theorem loadS_sched (v : Word) (s : State) : (s.loadS v).sched = s.sched := rfl
@[simp] theorem loadS_mem (v : Word) (s : State) : (s.loadS v).mem = s.mem := rfl
@[simp] theorem loadS_params (v : Word) (s : State) : (s.loadS v).params = s.params := rfl
@[simp] theorem loadS_script (v : Word) (s : State) : (s.loadS v).script = s.script := rfl
@[simp] theorem loadS_hostFault (v : Word) (s : State) : (s.loadS v).hostFault = s.hostFault := rfl
@[simp] theorem loadS_freeCount (v : Word) (s : State) : (s.loadS v).freeCount = s.freeCount := rfl
@[simp] theorem loadS_trace (v : Word) (s : State) : (s.loadS v).trace = s.trace := rfl

/-! ### A broken precondition -/

@[simp] theorem raise_a (f : Fault) (s : State) : (s.raise f).a = s.a := rfl
@[simp] theorem raise_b (f : Fault) (s : State) : (s.raise f).b = s.b := rfl
@[simp] theorem raise_x (f : Fault) (s : State) : (s.raise f).x = s.x := rfl
@[simp] theorem raise_y (f : Fault) (s : State) : (s.raise f).y = s.y := rfl
@[simp] theorem raise_u (f : Fault) (s : State) : (s.raise f).u = s.u := rfl
@[simp] theorem raise_s (f : Fault) (s : State) : (s.raise f).s = s.s := rfl
@[simp] theorem raise_pc (f : Fault) (s : State) : (s.raise f).pc = s.pc := rfl
@[simp] theorem raise_dp (f : Fault) (s : State) : (s.raise f).dp = s.dp := rfl
@[simp] theorem raise_cc (f : Fault) (s : State) : (s.raise f).cc = s.cc := rfl
@[simp] theorem raise_nmi (f : Fault) (s : State) : (s.raise f).nmi = s.nmi := rfl
@[simp] theorem raise_firq (f : Fault) (s : State) : (s.raise f).firq = s.firq := rfl
@[simp] theorem raise_irq (f : Fault) (s : State) : (s.raise f).irq = s.irq := rfl
@[simp] theorem raise_nmiArmed (f : Fault) (s : State) : (s.raise f).nmiArmed = s.nmiArmed := rfl
@[simp] theorem raise_nmiRequest (f : Fault) (s : State) : (s.raise f).nmiRequest = s.nmiRequest := rfl
@[simp] theorem raise_halt (f : Fault) (s : State) : (s.raise f).halt = s.halt := rfl
@[simp] theorem raise_cycle (f : Fault) (s : State) : (s.raise f).cycle = s.cycle := rfl
@[simp] theorem raise_phase (f : Fault) (s : State) : (s.raise f).phase = s.phase := rfl
@[simp] theorem raise_viaCwai (f : Fault) (s : State) : (s.raise f).viaCwai = s.viaCwai := rfl
@[simp] theorem raise_irqSel (f : Fault) (s : State) : (s.raise f).irqSel = s.irqSel := rfl
@[simp] theorem raise_opcode (f : Fault) (s : State) : (s.raise f).opcode = s.opcode := rfl
@[simp] theorem raise_postbyte (f : Fault) (s : State) : (s.raise f).postbyte = s.postbyte := rfl
@[simp] theorem raise_operand (f : Fault) (s : State) : (s.raise f).operand = s.operand := rfl
@[simp] theorem raise_running (f : Fault) (s : State) : (s.raise f).running = s.running := rfl
@[simp] theorem raise_sched (f : Fault) (s : State) : (s.raise f).sched = s.sched := rfl
@[simp] theorem raise_mem (f : Fault) (s : State) : (s.raise f).mem = s.mem := rfl
@[simp] theorem raise_params (f : Fault) (s : State) : (s.raise f).params = s.params := rfl
@[simp] theorem raise_script (f : Fault) (s : State) : (s.raise f).script = s.script := rfl
@[simp] theorem raise_hostFault (f : Fault) (s : State) : (s.raise f).hostFault = s.hostFault.or (some f) := rfl
@[simp] theorem raise_freeCount (f : Fault) (s : State) : (s.raise f).freeCount = s.freeCount := rfl
@[simp] theorem raise_trace (f : Fault) (s : State) : (s.raise f).trace = s.trace := rfl

/-! ### A stack pointer -/

@[simp] theorem setSp_a (st : Stack) (v : Word) (s : State) : (s.setSp st v).a = s.a := by cases st <;> rfl
@[simp] theorem setSp_b (st : Stack) (v : Word) (s : State) : (s.setSp st v).b = s.b := by cases st <;> rfl
@[simp] theorem setSp_x (st : Stack) (v : Word) (s : State) : (s.setSp st v).x = s.x := by cases st <;> rfl
@[simp] theorem setSp_y (st : Stack) (v : Word) (s : State) : (s.setSp st v).y = s.y := by cases st <;> rfl
@[simp] theorem setSp_u (st : Stack) (v : Word) (s : State) : (s.setSp st v).u = (match st with | .s => s.u | .u => v) := by cases st <;> rfl
@[simp] theorem setSp_s (st : Stack) (v : Word) (s : State) : (s.setSp st v).s = (match st with | .s => v | .u => s.s) := by cases st <;> rfl
@[simp] theorem setSp_pc (st : Stack) (v : Word) (s : State) : (s.setSp st v).pc = s.pc := by cases st <;> rfl
@[simp] theorem setSp_dp (st : Stack) (v : Word) (s : State) : (s.setSp st v).dp = s.dp := by cases st <;> rfl
@[simp] theorem setSp_cc (st : Stack) (v : Word) (s : State) : (s.setSp st v).cc = s.cc := by cases st <;> rfl
@[simp] theorem setSp_nmi (st : Stack) (v : Word) (s : State) : (s.setSp st v).nmi = s.nmi := by cases st <;> rfl
@[simp] theorem setSp_firq (st : Stack) (v : Word) (s : State) : (s.setSp st v).firq = s.firq := by cases st <;> rfl
@[simp] theorem setSp_irq (st : Stack) (v : Word) (s : State) : (s.setSp st v).irq = s.irq := by cases st <;> rfl
@[simp] theorem setSp_nmiArmed (st : Stack) (v : Word) (s : State) : (s.setSp st v).nmiArmed = s.nmiArmed := by cases st <;> rfl
@[simp] theorem setSp_nmiRequest (st : Stack) (v : Word) (s : State) : (s.setSp st v).nmiRequest = s.nmiRequest := by cases st <;> rfl
@[simp] theorem setSp_halt (st : Stack) (v : Word) (s : State) : (s.setSp st v).halt = s.halt := by cases st <;> rfl
@[simp] theorem setSp_cycle (st : Stack) (v : Word) (s : State) : (s.setSp st v).cycle = s.cycle := by cases st <;> rfl
@[simp] theorem setSp_phase (st : Stack) (v : Word) (s : State) : (s.setSp st v).phase = s.phase := by cases st <;> rfl
@[simp] theorem setSp_viaCwai (st : Stack) (v : Word) (s : State) : (s.setSp st v).viaCwai = s.viaCwai := by cases st <;> rfl
@[simp] theorem setSp_irqSel (st : Stack) (v : Word) (s : State) : (s.setSp st v).irqSel = s.irqSel := by cases st <;> rfl
@[simp] theorem setSp_opcode (st : Stack) (v : Word) (s : State) : (s.setSp st v).opcode = s.opcode := by cases st <;> rfl
@[simp] theorem setSp_postbyte (st : Stack) (v : Word) (s : State) : (s.setSp st v).postbyte = s.postbyte := by cases st <;> rfl
@[simp] theorem setSp_operand (st : Stack) (v : Word) (s : State) : (s.setSp st v).operand = s.operand := by cases st <;> rfl
@[simp] theorem setSp_running (st : Stack) (v : Word) (s : State) : (s.setSp st v).running = s.running := by cases st <;> rfl
@[simp] theorem setSp_sched (st : Stack) (v : Word) (s : State) : (s.setSp st v).sched = s.sched := by cases st <;> rfl
@[simp] theorem setSp_mem (st : Stack) (v : Word) (s : State) : (s.setSp st v).mem = s.mem := by cases st <;> rfl
@[simp] theorem setSp_params (st : Stack) (v : Word) (s : State) : (s.setSp st v).params = s.params := by cases st <;> rfl
@[simp] theorem setSp_script (st : Stack) (v : Word) (s : State) : (s.setSp st v).script = s.script := by cases st <;> rfl
@[simp] theorem setSp_hostFault (st : Stack) (v : Word) (s : State) : (s.setSp st v).hostFault = s.hostFault := by cases st <;> rfl
@[simp] theorem setSp_freeCount (st : Stack) (v : Word) (s : State) : (s.setSp st v).freeCount = s.freeCount := by cases st <;> rfl
@[simp] theorem setSp_trace (st : Stack) (v : Word) (s : State) : (s.setSp st v).trace = s.trace := by cases st <;> rfl

/-! ### The other stack pointer -/

@[simp] theorem setOtherSp_a (st : Stack) (v : Word) (s : State) : (s.setOtherSp st v).a = s.a := by cases st <;> rfl
@[simp] theorem setOtherSp_b (st : Stack) (v : Word) (s : State) : (s.setOtherSp st v).b = s.b := by cases st <;> rfl
@[simp] theorem setOtherSp_x (st : Stack) (v : Word) (s : State) : (s.setOtherSp st v).x = s.x := by cases st <;> rfl
@[simp] theorem setOtherSp_y (st : Stack) (v : Word) (s : State) : (s.setOtherSp st v).y = s.y := by cases st <;> rfl
@[simp] theorem setOtherSp_u (st : Stack) (v : Word) (s : State) : (s.setOtherSp st v).u = (match st with | .s => v | .u => s.u) := by cases st <;> rfl
@[simp] theorem setOtherSp_s (st : Stack) (v : Word) (s : State) : (s.setOtherSp st v).s = (match st with | .s => s.s | .u => v) := by cases st <;> rfl
@[simp] theorem setOtherSp_pc (st : Stack) (v : Word) (s : State) : (s.setOtherSp st v).pc = s.pc := by cases st <;> rfl
@[simp] theorem setOtherSp_dp (st : Stack) (v : Word) (s : State) : (s.setOtherSp st v).dp = s.dp := by cases st <;> rfl
@[simp] theorem setOtherSp_cc (st : Stack) (v : Word) (s : State) : (s.setOtherSp st v).cc = s.cc := by cases st <;> rfl
@[simp] theorem setOtherSp_nmi (st : Stack) (v : Word) (s : State) : (s.setOtherSp st v).nmi = s.nmi := by cases st <;> rfl
@[simp] theorem setOtherSp_firq (st : Stack) (v : Word) (s : State) : (s.setOtherSp st v).firq = s.firq := by cases st <;> rfl
@[simp] theorem setOtherSp_irq (st : Stack) (v : Word) (s : State) : (s.setOtherSp st v).irq = s.irq := by cases st <;> rfl
@[simp] theorem setOtherSp_nmiArmed (st : Stack) (v : Word) (s : State) : (s.setOtherSp st v).nmiArmed = (match st with | .s => s.nmiArmed | .u => true) := by cases st <;> rfl
@[simp] theorem setOtherSp_nmiRequest (st : Stack) (v : Word) (s : State) : (s.setOtherSp st v).nmiRequest = s.nmiRequest := by cases st <;> rfl
@[simp] theorem setOtherSp_halt (st : Stack) (v : Word) (s : State) : (s.setOtherSp st v).halt = s.halt := by cases st <;> rfl
@[simp] theorem setOtherSp_cycle (st : Stack) (v : Word) (s : State) : (s.setOtherSp st v).cycle = s.cycle := by cases st <;> rfl
@[simp] theorem setOtherSp_phase (st : Stack) (v : Word) (s : State) : (s.setOtherSp st v).phase = s.phase := by cases st <;> rfl
@[simp] theorem setOtherSp_viaCwai (st : Stack) (v : Word) (s : State) : (s.setOtherSp st v).viaCwai = s.viaCwai := by cases st <;> rfl
@[simp] theorem setOtherSp_irqSel (st : Stack) (v : Word) (s : State) : (s.setOtherSp st v).irqSel = s.irqSel := by cases st <;> rfl
@[simp] theorem setOtherSp_opcode (st : Stack) (v : Word) (s : State) : (s.setOtherSp st v).opcode = s.opcode := by cases st <;> rfl
@[simp] theorem setOtherSp_postbyte (st : Stack) (v : Word) (s : State) : (s.setOtherSp st v).postbyte = s.postbyte := by cases st <;> rfl
@[simp] theorem setOtherSp_operand (st : Stack) (v : Word) (s : State) : (s.setOtherSp st v).operand = s.operand := by cases st <;> rfl
@[simp] theorem setOtherSp_running (st : Stack) (v : Word) (s : State) : (s.setOtherSp st v).running = s.running := by cases st <;> rfl
@[simp] theorem setOtherSp_sched (st : Stack) (v : Word) (s : State) : (s.setOtherSp st v).sched = s.sched := by cases st <;> rfl
@[simp] theorem setOtherSp_mem (st : Stack) (v : Word) (s : State) : (s.setOtherSp st v).mem = s.mem := by cases st <;> rfl
@[simp] theorem setOtherSp_params (st : Stack) (v : Word) (s : State) : (s.setOtherSp st v).params = s.params := by cases st <;> rfl
@[simp] theorem setOtherSp_script (st : Stack) (v : Word) (s : State) : (s.setOtherSp st v).script = s.script := by cases st <;> rfl
@[simp] theorem setOtherSp_hostFault (st : Stack) (v : Word) (s : State) : (s.setOtherSp st v).hostFault = s.hostFault := by cases st <;> rfl
@[simp] theorem setOtherSp_freeCount (st : Stack) (v : Word) (s : State) : (s.setOtherSp st v).freeCount = s.freeCount := by cases st <;> rfl
@[simp] theorem setOtherSp_trace (st : Stack) (v : Word) (s : State) : (s.setOtherSp st v).trace = s.trace := by cases st <;> rfl

/-! ### An index register -/

@[simp] theorem setIdx_a (r : IdxReg) (v : Word) (s : State) : (s.setIdx r v).a = s.a := by cases r <;> rfl
@[simp] theorem setIdx_b (r : IdxReg) (v : Word) (s : State) : (s.setIdx r v).b = s.b := by cases r <;> rfl
@[simp] theorem setIdx_x (r : IdxReg) (v : Word) (s : State) : (s.setIdx r v).x = (if r = .x then v else s.x) := by cases r <;> rfl
@[simp] theorem setIdx_y (r : IdxReg) (v : Word) (s : State) : (s.setIdx r v).y = (if r = .y then v else s.y) := by cases r <;> rfl
@[simp] theorem setIdx_u (r : IdxReg) (v : Word) (s : State) : (s.setIdx r v).u = (if r = .u then v else s.u) := by cases r <;> rfl
@[simp] theorem setIdx_s (r : IdxReg) (v : Word) (s : State) : (s.setIdx r v).s = (if r = .s then v else s.s) := by cases r <;> rfl
@[simp] theorem setIdx_pc (r : IdxReg) (v : Word) (s : State) : (s.setIdx r v).pc = s.pc := by cases r <;> rfl
@[simp] theorem setIdx_dp (r : IdxReg) (v : Word) (s : State) : (s.setIdx r v).dp = s.dp := by cases r <;> rfl
@[simp] theorem setIdx_cc (r : IdxReg) (v : Word) (s : State) : (s.setIdx r v).cc = s.cc := by cases r <;> rfl
@[simp] theorem setIdx_nmi (r : IdxReg) (v : Word) (s : State) : (s.setIdx r v).nmi = s.nmi := by cases r <;> rfl
@[simp] theorem setIdx_firq (r : IdxReg) (v : Word) (s : State) : (s.setIdx r v).firq = s.firq := by cases r <;> rfl
@[simp] theorem setIdx_irq (r : IdxReg) (v : Word) (s : State) : (s.setIdx r v).irq = s.irq := by cases r <;> rfl
@[simp] theorem setIdx_nmiArmed (r : IdxReg) (v : Word) (s : State) : (s.setIdx r v).nmiArmed = s.nmiArmed := by cases r <;> rfl
@[simp] theorem setIdx_nmiRequest (r : IdxReg) (v : Word) (s : State) : (s.setIdx r v).nmiRequest = s.nmiRequest := by cases r <;> rfl
@[simp] theorem setIdx_halt (r : IdxReg) (v : Word) (s : State) : (s.setIdx r v).halt = s.halt := by cases r <;> rfl
@[simp] theorem setIdx_cycle (r : IdxReg) (v : Word) (s : State) : (s.setIdx r v).cycle = s.cycle := by cases r <;> rfl
@[simp] theorem setIdx_phase (r : IdxReg) (v : Word) (s : State) : (s.setIdx r v).phase = s.phase := by cases r <;> rfl
@[simp] theorem setIdx_viaCwai (r : IdxReg) (v : Word) (s : State) : (s.setIdx r v).viaCwai = s.viaCwai := by cases r <;> rfl
@[simp] theorem setIdx_irqSel (r : IdxReg) (v : Word) (s : State) : (s.setIdx r v).irqSel = s.irqSel := by cases r <;> rfl
@[simp] theorem setIdx_opcode (r : IdxReg) (v : Word) (s : State) : (s.setIdx r v).opcode = s.opcode := by cases r <;> rfl
@[simp] theorem setIdx_postbyte (r : IdxReg) (v : Word) (s : State) : (s.setIdx r v).postbyte = s.postbyte := by cases r <;> rfl
@[simp] theorem setIdx_operand (r : IdxReg) (v : Word) (s : State) : (s.setIdx r v).operand = s.operand := by cases r <;> rfl
@[simp] theorem setIdx_running (r : IdxReg) (v : Word) (s : State) : (s.setIdx r v).running = s.running := by cases r <;> rfl
@[simp] theorem setIdx_sched (r : IdxReg) (v : Word) (s : State) : (s.setIdx r v).sched = s.sched := by cases r <;> rfl
@[simp] theorem setIdx_mem (r : IdxReg) (v : Word) (s : State) : (s.setIdx r v).mem = s.mem := by cases r <;> rfl
@[simp] theorem setIdx_params (r : IdxReg) (v : Word) (s : State) : (s.setIdx r v).params = s.params := by cases r <;> rfl
@[simp] theorem setIdx_script (r : IdxReg) (v : Word) (s : State) : (s.setIdx r v).script = s.script := by cases r <;> rfl
@[simp] theorem setIdx_hostFault (r : IdxReg) (v : Word) (s : State) : (s.setIdx r v).hostFault = s.hostFault := by cases r <;> rfl
@[simp] theorem setIdx_freeCount (r : IdxReg) (v : Word) (s : State) : (s.setIdx r v).freeCount = s.freeCount := by cases r <;> rfl
@[simp] theorem setIdx_trace (r : IdxReg) (v : Word) (s : State) : (s.setIdx r v).trace = s.trace := by cases r <;> rfl

end Sys2Proof.Machine
end

