-- ==== Sys2Proof/Laws/Bus.lean ====
section
/-! SUPPORT. The shared operations under a host that does not interfere: each is the bus cycles it performs
(`State.after`) and the values it finds in memory. -/

namespace Sys2Proof.Machine

@[simp] theorem State.after_nil (s : State) : s.after [] = s := by simp [State.after]

@[simp] theorem State.after_after (s : State) (l k : List Obs) : (s.after l).after k = s.after (l ++ k) := by
  simp [State.after, BitVec.ofNat_add, BitVec.add_assoc]

theorem State.tick_eq_after (s : State) (o : Obs) : s.tick o = s.after [o] := by
  simp [State.tick, State.after]

@[simp] theorem State.byteAt_after (s : State) (l : List Obs) (a : Word) : (s.after l).byteAt a = s.byteAt a := rfl
@[simp] theorem State.wordAt_after (s : State) (l : List Obs) (a : Word) : (s.after l).wordAt a = s.wordAt a := rfl
@[simp] theorem State.look_after (s : State) (l : List Obs) (a : Word) : (s.after l).look a = s.look a := rfl
@[simp] theorem State.fill_after (s : State) (l : List Obs) : (s.after l).fill = s.fill := rfl

theorem callout_quiet {s : State} (h : s.script = []) : callout s = s := by simp [callout, h]

theorem readCycle_quiet {s : State} (h : s.script = []) (a : Word) :
    readCycle a s = (s.byteAt a, s.after [s.look a]) := by
  simp [readCycle, callout_quiet h, State.tick_eq_after, State.byteAt, State.look]

theorem writeCycle_quiet {s : State} (h : s.script = []) (a : Word) (v : Byte) :
    writeCycle a v s = { s.after [.write a v] with mem := s.mem.write a.toNat v } := by
  simp [writeCycle, callout_quiet h, State.tick, State.after]

theorem dummy_quiet {s : State} (h : s.script = []) (a : Word) : dummy a s = s.after [s.look a] := by
  simp [dummy, readCycle_quiet h]

theorem filler_quiet {s : State} (h : s.script = []) : filler s = s.after [s.fill] := by
  simp [filler, dummy_quiet h, State.fill]

theorem fillers_quiet {s : State} (h : s.script = []) (n : Nat) : fillers n s = s.after (List.replicate n s.fill) := by
  induction n generalizing s with
  | zero => simp [fillers]
  | succ n ih => simp [fillers, filler_quiet h, ih (s := s.after [s.fill]) h, List.replicate_succ]

theorem readWord_quiet {s : State} (h : s.script = []) (a : Word) :
    readWord a s = (s.wordAt a, s.after [s.look a, s.look (a + 1#16)]) := by
  simp [readWord, readCycle_quiet, h, State.wordAt]

theorem writeWord_quiet {s : State} (h : s.script = []) (a v : Word) :
    writeWord a v s = { s.after [.write a (hiByte v), .write (a + 1#16) (loByte v)] with
      mem := (s.mem.write a.toNat (hiByte v)).write (a + 1#16).toNat (loByte v) } := by
  simp [writeWord, writeCycle_quiet, h, State.after, BitVec.add_assoc]

theorem fetchByte_quiet {s : State} (h : s.script = []) :
    fetchByte s = (s.byteAt s.pc, { s.after [s.look s.pc] with pc := s.pc + 1#16 }) := by
  simp [fetchByte, readCycle_quiet h]

/-! ### Addresses and operands -/

theorem State.setIdx_after (s : State) (l : List Obs) (r : IdxReg) (v : Word) :
    (s.after l).setIdx r v = (s.setIdx r v).after l := by cases r <;> rfl

/-- The address of an indexed form: R126's columns. -/
theorem indexedForm_quiet {s : State} (h : s.script = []) (x : Indexed) :
    indexedForm x s = (formEa x s, (formRegs x s).after (List.replicate (formFills x.mode) s.fill)) := by
  obtain ⟨r, m, ind⟩ := x
  cases m <;> simp [indexedForm, formEa, formRegs, formFills, fillers_quiet h, filler_quiet h, State.setIdx_after]

@[simp] theorem formRegs_script (x : Indexed) (s : State) : (formRegs x s).script = s.script := by
  unfold formRegs; split <;> simp

@[simp] theorem formRegs_mem (x : Indexed) (s : State) : (formRegs x s).mem = s.mem := by
  unfold formRegs; split <;> simp

@[simp] theorem formRegs_hostFault (x : Indexed) (s : State) : (formRegs x s).hostFault = s.hostFault := by
  unfold formRegs; split <;> simp

@[simp] theorem eaRegs_script (m : MemOp) (s : State) : (eaRegs m s).script = s.script := by
  cases m <;> simp [eaRegs]

@[simp] theorem eaRegs_mem (m : MemOp) (s : State) : (eaRegs m s).mem = s.mem := by
  cases m <;> simp [eaRegs]

@[simp] theorem eaRegs_hostFault (m : MemOp) (s : State) : (eaRegs m s).hostFault = s.hostFault := by
  cases m <;> simp [eaRegs]

theorem State.look_of_mem {s t : State} (h : t.mem = s.mem) (a : Word) : t.look a = s.look a := by
  simp [State.look, State.byteAt, h]

theorem State.fill_of_mem {s t : State} (h : t.mem = s.mem) : t.fill = s.fill := State.look_of_mem h _

theorem State.byteAt_of_mem {s t : State} (h : t.mem = s.mem) (a : Word) : t.byteAt a = s.byteAt a := by
  simp [State.byteAt, h]

theorem State.wordAt_of_mem {s t : State} (h : t.mem = s.mem) (a : Word) : t.wordAt a = s.wordAt a := by
  simp [State.wordAt, State.byteAt_of_mem h]

/-- R129: the address of an indexed operand, the register it updates, and the bus cycles that make it. -/
theorem eaIndexed_quiet {s : State} (h : s.script = []) (x : Indexed) :
    eaIndexed x s = (indexedEa x s, (formRegs x s).after (indexedBus x s)) := by
  have hm := formRegs_mem x s
  unfold eaIndexed
  cases hi : x.indirect <;>
    simp [indexedForm_quiet h, indexedEa, indexedBus, hi, indirectEa, readWord_quiet, filler_quiet, h,
      State.look_of_mem hm, State.fill_of_mem hm, State.wordAt_of_mem hm]

/-- The address of a memory operand, the register it updates, and the bus cycles that make it. -/
theorem ea_quiet {s : State} (h : s.script = []) (m : MemOp) :
    ea m s = (eaOf m s, (eaRegs m s).after (eaBus m s)) := by
  cases m <;> simp [ea, eaOf, eaRegs, eaBus, filler_quiet h, eaIndexed_quiet h]

@[simp] theorem src8Regs_mem (o : Src8) (s : State) : (src8Regs o s).mem = s.mem := by cases o <;> simp [src8Regs]
@[simp] theorem src8Regs_script (o : Src8) (s : State) : (src8Regs o s).script = s.script := by
  cases o <;> simp [src8Regs]
@[simp] theorem src8Regs_hostFault (o : Src8) (s : State) : (src8Regs o s).hostFault = s.hostFault := by
  cases o <;> simp [src8Regs]
@[simp] theorem src16Regs_mem (o : Src16) (s : State) : (src16Regs o s).mem = s.mem := by cases o <;> simp [src16Regs]
@[simp] theorem src16Regs_script (o : Src16) (s : State) : (src16Regs o s).script = s.script := by
  cases o <;> simp [src16Regs]
@[simp] theorem src16Regs_hostFault (o : Src16) (s : State) : (src16Regs o s).hostFault = s.hostFault := by
  cases o <;> simp [src16Regs]

/-- R268. -/
theorem operand8_quiet {s : State} (h : s.script = []) (o : Src8) :
    operand8 o s = (src8Value o s, (src8Regs o s).after (src8Bus o s)) := by
  cases o with
  | imm v => simp [operand8, src8Value, src8Regs, src8Bus]
  | mem m =>
    have hm := eaRegs_mem m s
    simp [operand8, src8Value, src8Regs, src8Bus, ea_quiet h, readCycle_quiet, h, State.byteAt_of_mem hm,
      State.look_of_mem hm]

/-- R303. -/
theorem operand16_quiet {s : State} (h : s.script = []) (o : Src16) :
    operand16 o s = (src16Value o s, (src16Regs o s).after (src16Bus o s)) := by
  cases o with
  | imm v => simp [operand16, src16Value, src16Regs, src16Bus]
  | mem m =>
    have hm := eaRegs_mem m s
    simp [operand16, src16Value, src16Regs, src16Bus, ea_quiet h, readWord_quiet, h, State.wordAt_of_mem hm,
      State.look_of_mem hm]

/-! ### What the register update of an operand leaves -/

@[simp] theorem formRegs_a (x : Indexed) (s : State) : (formRegs x s).a = s.a := by unfold formRegs; split <;> simp
@[simp] theorem eaRegs_a (m : MemOp) (s : State) : (eaRegs m s).a = s.a := by cases m <;> simp [eaRegs]
@[simp] theorem src8Regs_a (o : Src8) (s : State) : (src8Regs o s).a = s.a := by cases o <;> simp [src8Regs]
@[simp] theorem src16Regs_a (o : Src16) (s : State) : (src16Regs o s).a = s.a := by cases o <;> simp [src16Regs]
@[simp] theorem formRegs_b (x : Indexed) (s : State) : (formRegs x s).b = s.b := by unfold formRegs; split <;> simp
@[simp] theorem eaRegs_b (m : MemOp) (s : State) : (eaRegs m s).b = s.b := by cases m <;> simp [eaRegs]
@[simp] theorem src8Regs_b (o : Src8) (s : State) : (src8Regs o s).b = s.b := by cases o <;> simp [src8Regs]
@[simp] theorem src16Regs_b (o : Src16) (s : State) : (src16Regs o s).b = s.b := by cases o <;> simp [src16Regs]
@[simp] theorem formRegs_pc (x : Indexed) (s : State) : (formRegs x s).pc = s.pc := by unfold formRegs; split <;> simp
@[simp] theorem eaRegs_pc (m : MemOp) (s : State) : (eaRegs m s).pc = s.pc := by cases m <;> simp [eaRegs]
@[simp] theorem src8Regs_pc (o : Src8) (s : State) : (src8Regs o s).pc = s.pc := by cases o <;> simp [src8Regs]
@[simp] theorem src16Regs_pc (o : Src16) (s : State) : (src16Regs o s).pc = s.pc := by cases o <;> simp [src16Regs]
@[simp] theorem formRegs_dp (x : Indexed) (s : State) : (formRegs x s).dp = s.dp := by unfold formRegs; split <;> simp
@[simp] theorem eaRegs_dp (m : MemOp) (s : State) : (eaRegs m s).dp = s.dp := by cases m <;> simp [eaRegs]
@[simp] theorem src8Regs_dp (o : Src8) (s : State) : (src8Regs o s).dp = s.dp := by cases o <;> simp [src8Regs]
@[simp] theorem src16Regs_dp (o : Src16) (s : State) : (src16Regs o s).dp = s.dp := by cases o <;> simp [src16Regs]
@[simp] theorem formRegs_cc (x : Indexed) (s : State) : (formRegs x s).cc = s.cc := by unfold formRegs; split <;> simp
@[simp] theorem eaRegs_cc (m : MemOp) (s : State) : (eaRegs m s).cc = s.cc := by cases m <;> simp [eaRegs]
@[simp] theorem src8Regs_cc (o : Src8) (s : State) : (src8Regs o s).cc = s.cc := by cases o <;> simp [src8Regs]
@[simp] theorem src16Regs_cc (o : Src16) (s : State) : (src16Regs o s).cc = s.cc := by cases o <;> simp [src16Regs]
@[simp] theorem formRegs_nmi (x : Indexed) (s : State) : (formRegs x s).nmi = s.nmi := by unfold formRegs; split <;> simp
@[simp] theorem eaRegs_nmi (m : MemOp) (s : State) : (eaRegs m s).nmi = s.nmi := by cases m <;> simp [eaRegs]
@[simp] theorem src8Regs_nmi (o : Src8) (s : State) : (src8Regs o s).nmi = s.nmi := by cases o <;> simp [src8Regs]
@[simp] theorem src16Regs_nmi (o : Src16) (s : State) : (src16Regs o s).nmi = s.nmi := by cases o <;> simp [src16Regs]
@[simp] theorem formRegs_firq (x : Indexed) (s : State) : (formRegs x s).firq = s.firq := by unfold formRegs; split <;> simp
@[simp] theorem eaRegs_firq (m : MemOp) (s : State) : (eaRegs m s).firq = s.firq := by cases m <;> simp [eaRegs]
@[simp] theorem src8Regs_firq (o : Src8) (s : State) : (src8Regs o s).firq = s.firq := by cases o <;> simp [src8Regs]
@[simp] theorem src16Regs_firq (o : Src16) (s : State) : (src16Regs o s).firq = s.firq := by cases o <;> simp [src16Regs]
@[simp] theorem formRegs_irq (x : Indexed) (s : State) : (formRegs x s).irq = s.irq := by unfold formRegs; split <;> simp
@[simp] theorem eaRegs_irq (m : MemOp) (s : State) : (eaRegs m s).irq = s.irq := by cases m <;> simp [eaRegs]
@[simp] theorem src8Regs_irq (o : Src8) (s : State) : (src8Regs o s).irq = s.irq := by cases o <;> simp [src8Regs]
@[simp] theorem src16Regs_irq (o : Src16) (s : State) : (src16Regs o s).irq = s.irq := by cases o <;> simp [src16Regs]
@[simp] theorem formRegs_nmiArmed (x : Indexed) (s : State) : (formRegs x s).nmiArmed = s.nmiArmed := by unfold formRegs; split <;> simp
@[simp] theorem eaRegs_nmiArmed (m : MemOp) (s : State) : (eaRegs m s).nmiArmed = s.nmiArmed := by cases m <;> simp [eaRegs]
@[simp] theorem src8Regs_nmiArmed (o : Src8) (s : State) : (src8Regs o s).nmiArmed = s.nmiArmed := by cases o <;> simp [src8Regs]
@[simp] theorem src16Regs_nmiArmed (o : Src16) (s : State) : (src16Regs o s).nmiArmed = s.nmiArmed := by cases o <;> simp [src16Regs]
@[simp] theorem formRegs_nmiRequest (x : Indexed) (s : State) : (formRegs x s).nmiRequest = s.nmiRequest := by unfold formRegs; split <;> simp
@[simp] theorem eaRegs_nmiRequest (m : MemOp) (s : State) : (eaRegs m s).nmiRequest = s.nmiRequest := by cases m <;> simp [eaRegs]
@[simp] theorem src8Regs_nmiRequest (o : Src8) (s : State) : (src8Regs o s).nmiRequest = s.nmiRequest := by cases o <;> simp [src8Regs]
@[simp] theorem src16Regs_nmiRequest (o : Src16) (s : State) : (src16Regs o s).nmiRequest = s.nmiRequest := by cases o <;> simp [src16Regs]
@[simp] theorem formRegs_halt (x : Indexed) (s : State) : (formRegs x s).halt = s.halt := by unfold formRegs; split <;> simp
@[simp] theorem eaRegs_halt (m : MemOp) (s : State) : (eaRegs m s).halt = s.halt := by cases m <;> simp [eaRegs]
@[simp] theorem src8Regs_halt (o : Src8) (s : State) : (src8Regs o s).halt = s.halt := by cases o <;> simp [src8Regs]
@[simp] theorem src16Regs_halt (o : Src16) (s : State) : (src16Regs o s).halt = s.halt := by cases o <;> simp [src16Regs]
@[simp] theorem formRegs_cycle (x : Indexed) (s : State) : (formRegs x s).cycle = s.cycle := by unfold formRegs; split <;> simp
@[simp] theorem eaRegs_cycle (m : MemOp) (s : State) : (eaRegs m s).cycle = s.cycle := by cases m <;> simp [eaRegs]
@[simp] theorem src8Regs_cycle (o : Src8) (s : State) : (src8Regs o s).cycle = s.cycle := by cases o <;> simp [src8Regs]
@[simp] theorem src16Regs_cycle (o : Src16) (s : State) : (src16Regs o s).cycle = s.cycle := by cases o <;> simp [src16Regs]
@[simp] theorem formRegs_phase (x : Indexed) (s : State) : (formRegs x s).phase = s.phase := by unfold formRegs; split <;> simp
@[simp] theorem eaRegs_phase (m : MemOp) (s : State) : (eaRegs m s).phase = s.phase := by cases m <;> simp [eaRegs]
@[simp] theorem src8Regs_phase (o : Src8) (s : State) : (src8Regs o s).phase = s.phase := by cases o <;> simp [src8Regs]
@[simp] theorem src16Regs_phase (o : Src16) (s : State) : (src16Regs o s).phase = s.phase := by cases o <;> simp [src16Regs]
@[simp] theorem formRegs_viaCwai (x : Indexed) (s : State) : (formRegs x s).viaCwai = s.viaCwai := by unfold formRegs; split <;> simp
@[simp] theorem eaRegs_viaCwai (m : MemOp) (s : State) : (eaRegs m s).viaCwai = s.viaCwai := by cases m <;> simp [eaRegs]
@[simp] theorem src8Regs_viaCwai (o : Src8) (s : State) : (src8Regs o s).viaCwai = s.viaCwai := by cases o <;> simp [src8Regs]
@[simp] theorem src16Regs_viaCwai (o : Src16) (s : State) : (src16Regs o s).viaCwai = s.viaCwai := by cases o <;> simp [src16Regs]
@[simp] theorem formRegs_irqSel (x : Indexed) (s : State) : (formRegs x s).irqSel = s.irqSel := by unfold formRegs; split <;> simp
@[simp] theorem eaRegs_irqSel (m : MemOp) (s : State) : (eaRegs m s).irqSel = s.irqSel := by cases m <;> simp [eaRegs]
@[simp] theorem src8Regs_irqSel (o : Src8) (s : State) : (src8Regs o s).irqSel = s.irqSel := by cases o <;> simp [src8Regs]
@[simp] theorem src16Regs_irqSel (o : Src16) (s : State) : (src16Regs o s).irqSel = s.irqSel := by cases o <;> simp [src16Regs]
@[simp] theorem formRegs_opcode (x : Indexed) (s : State) : (formRegs x s).opcode = s.opcode := by unfold formRegs; split <;> simp
@[simp] theorem eaRegs_opcode (m : MemOp) (s : State) : (eaRegs m s).opcode = s.opcode := by cases m <;> simp [eaRegs]
@[simp] theorem src8Regs_opcode (o : Src8) (s : State) : (src8Regs o s).opcode = s.opcode := by cases o <;> simp [src8Regs]
@[simp] theorem src16Regs_opcode (o : Src16) (s : State) : (src16Regs o s).opcode = s.opcode := by cases o <;> simp [src16Regs]
@[simp] theorem formRegs_postbyte (x : Indexed) (s : State) : (formRegs x s).postbyte = s.postbyte := by unfold formRegs; split <;> simp
@[simp] theorem eaRegs_postbyte (m : MemOp) (s : State) : (eaRegs m s).postbyte = s.postbyte := by cases m <;> simp [eaRegs]
@[simp] theorem src8Regs_postbyte (o : Src8) (s : State) : (src8Regs o s).postbyte = s.postbyte := by cases o <;> simp [src8Regs]
@[simp] theorem src16Regs_postbyte (o : Src16) (s : State) : (src16Regs o s).postbyte = s.postbyte := by cases o <;> simp [src16Regs]
@[simp] theorem formRegs_operand (x : Indexed) (s : State) : (formRegs x s).operand = s.operand := by unfold formRegs; split <;> simp
@[simp] theorem eaRegs_operand (m : MemOp) (s : State) : (eaRegs m s).operand = s.operand := by cases m <;> simp [eaRegs]
@[simp] theorem src8Regs_operand (o : Src8) (s : State) : (src8Regs o s).operand = s.operand := by cases o <;> simp [src8Regs]
@[simp] theorem src16Regs_operand (o : Src16) (s : State) : (src16Regs o s).operand = s.operand := by cases o <;> simp [src16Regs]
@[simp] theorem formRegs_running (x : Indexed) (s : State) : (formRegs x s).running = s.running := by unfold formRegs; split <;> simp
@[simp] theorem eaRegs_running (m : MemOp) (s : State) : (eaRegs m s).running = s.running := by cases m <;> simp [eaRegs]
@[simp] theorem src8Regs_running (o : Src8) (s : State) : (src8Regs o s).running = s.running := by cases o <;> simp [src8Regs]
@[simp] theorem src16Regs_running (o : Src16) (s : State) : (src16Regs o s).running = s.running := by cases o <;> simp [src16Regs]
@[simp] theorem formRegs_sched (x : Indexed) (s : State) : (formRegs x s).sched = s.sched := by unfold formRegs; split <;> simp
@[simp] theorem eaRegs_sched (m : MemOp) (s : State) : (eaRegs m s).sched = s.sched := by cases m <;> simp [eaRegs]
@[simp] theorem src8Regs_sched (o : Src8) (s : State) : (src8Regs o s).sched = s.sched := by cases o <;> simp [src8Regs]
@[simp] theorem src16Regs_sched (o : Src16) (s : State) : (src16Regs o s).sched = s.sched := by cases o <;> simp [src16Regs]
@[simp] theorem formRegs_params (x : Indexed) (s : State) : (formRegs x s).params = s.params := by unfold formRegs; split <;> simp
@[simp] theorem eaRegs_params (m : MemOp) (s : State) : (eaRegs m s).params = s.params := by cases m <;> simp [eaRegs]
@[simp] theorem src8Regs_params (o : Src8) (s : State) : (src8Regs o s).params = s.params := by cases o <;> simp [src8Regs]
@[simp] theorem src16Regs_params (o : Src16) (s : State) : (src16Regs o s).params = s.params := by cases o <;> simp [src16Regs]
@[simp] theorem formRegs_freeCount (x : Indexed) (s : State) : (formRegs x s).freeCount = s.freeCount := by unfold formRegs; split <;> simp
@[simp] theorem eaRegs_freeCount (m : MemOp) (s : State) : (eaRegs m s).freeCount = s.freeCount := by cases m <;> simp [eaRegs]
@[simp] theorem src8Regs_freeCount (o : Src8) (s : State) : (src8Regs o s).freeCount = s.freeCount := by cases o <;> simp [src8Regs]
@[simp] theorem src16Regs_freeCount (o : Src16) (s : State) : (src16Regs o s).freeCount = s.freeCount := by cases o <;> simp [src16Regs]
@[simp] theorem formRegs_trace (x : Indexed) (s : State) : (formRegs x s).trace = s.trace := by unfold formRegs; split <;> simp
@[simp] theorem eaRegs_trace (m : MemOp) (s : State) : (eaRegs m s).trace = s.trace := by cases m <;> simp [eaRegs]
@[simp] theorem src8Regs_trace (o : Src8) (s : State) : (src8Regs o s).trace = s.trace := by cases o <;> simp [src8Regs]
@[simp] theorem src16Regs_trace (o : Src16) (s : State) : (src16Regs o s).trace = s.trace := by cases o <;> simp [src16Regs]

/-! ### How a step ends -/

theorem settle_quiet {s : State} (h : s.hostFault = none) : settle s = .next s := by simp [settle, h]

theorem complete_quiet {s : State} (h : s.hostFault = none) : complete s = .next s.done := by
  simp [complete, settle, h, State.done]

theorem refuse_quiet {s : State} (h : s.hostFault = none) (r : Refusal) : refuse r s = .refused r := by
  simp [refuse, h]

/-- A step that answers a next state ends in the state it settles. -/
theorem settle_next {s t : State} (h : settle s = .next t) : t = s ∧ s.hostFault = none := by
  unfold settle at h
  split at h
  · next hf => cases h; exact ⟨rfl, hf⟩
  · cases h

theorem complete_next {s t : State} (h : complete s = .next t) : t = s.done ∧ s.hostFault = none := by
  have := settle_next h
  exact ⟨this.1, this.2⟩

theorem refuse_next {s t : State} {r : Refusal} (h : refuse r s = .next t) : False := by
  unfold refuse at h; split at h <;> cases h

end Sys2Proof.Machine
end

