-- ==== Sys2Proof/Laws/Words.lean ====
section
/-! SUPPORT. Bytes and words: a word is its two bytes; and the condition codes: a bit written is the bit read, and the
other bits stay. -/

namespace Sys2Proof

theorem getLsbD_joinBytes (h l : Byte) (i : Nat) :
    (joinBytes h l).getLsbD i = if i < 8 then l.getLsbD i else h.getLsbD (i - 8) := BitVec.getLsbD_append

theorem getLsbD_hiByte (w : Word) (i : Nat) : (hiByte w).getLsbD i = (decide (i < 8) && w.getLsbD (8 + i)) :=
  BitVec.getLsbD_extractLsb' ..

theorem getLsbD_loByte (w : Word) (i : Nat) : (loByte w).getLsbD i = (decide (i < 8) && w.getLsbD i) := by
  simp [loByte]

@[simp] theorem hiByte_joinBytes (h l : Byte) : hiByte (joinBytes h l) = h := by
  apply BitVec.eq_of_getLsbD_eq
  intro i hi
  rw [getLsbD_hiByte, getLsbD_joinBytes]
  simp [hi]

@[simp] theorem loByte_joinBytes (h l : Byte) : loByte (joinBytes h l) = l := by
  apply BitVec.eq_of_getLsbD_eq
  intro i hi
  rw [getLsbD_loByte, getLsbD_joinBytes]
  simp [hi]

@[simp] theorem joinBytes_hi_lo (w : Word) : joinBytes (hiByte w) (loByte w) = w := by
  apply BitVec.eq_of_getLsbD_eq
  intro i hi
  rw [getLsbD_joinBytes, getLsbD_hiByte, getLsbD_loByte]
  by_cases h : i < 8
  · simp [h]
  · rw [if_neg h, show 8 + (i - 8) = i by omega]
    simp; omega

end Sys2Proof

namespace Sys2Proof.Machine

theorem CcBit.pos_lt (k : CcBit) : k.pos < 8 := by cases k <;> decide

theorem CcBit.pos_inj {j k : CcBit} (h : j.pos = k.pos) : j = k := by
  revert h; cases j <;> cases k <;> decide

@[simp] theorem getCc_setCc_same (k : CcBit) (v : Bool) (cc : Byte) : getCc k (setCc k v cc) = v := by
  cases k <;> cases v <;> simp [getCc, setCc, CcBit.pos]

theorem getCc_setCc (j k : CcBit) (v : Bool) (cc : Byte) :
    getCc j (setCc k v cc) = if j = k then v else getCc j cc := by
  cases j <;> cases k <;> cases v <;> simp [getCc, setCc, CcBit.pos]

end Sys2Proof.Machine
end

