-- ==== Sys2Proof/Laws/Decode.lean ====
section
/-! SUPPORT. Register codes and indexed postbytes: encoding and decoding undo each other. -/

namespace Sys2Proof

@[simp] theorem IdxReg.ofBits_bits (r : IdxReg) : IdxReg.ofBits r.bits = r := by cases r <;> rfl
@[simp] theorem IdxReg.bits_ofBits (b : BitVec 2) : (IdxReg.ofBits b).bits = b := by revert b; decide
@[simp] theorem TReg.ofCode_code (r : TReg) : TReg.ofCode r.code = r := by cases r <;> rfl
@[simp] theorem TReg.code_ofCode (c : BitVec 4) : (TReg.ofCode c).code = c := by revert c; decide

/-- What the decoder reads from a postbyte with bit 7 set. -/
theorem pb_postbyte1 (r : IdxReg) (ind : Bool) (low : BitVec 4) :
    pbForm (postbyte1 r ind low) = pbForm1 ind low ∧ pbReg (postbyte1 r ind low) = r ∧
      pbIndirect (postbyte1 r ind low) = ind := by
  have h : ∀ (r : IdxReg) (ind : Bool) (low : BitVec 4), (postbyte1 r ind low).getLsbD 7 = true ∧
      (postbyte1 r ind low).getLsbD 4 = ind ∧ (postbyte1 r ind low).extractLsb' 0 4 = low ∧
      IdxReg.ofBits ((postbyte1 r ind low).extractLsb' 5 2) = r := by
    intro r ind
    cases r <;> cases ind <;> decide
  obtain ⟨h7, h4, hl, hr⟩ := h r ind low
  exact ⟨by simp only [pbForm, h7, h4, hl, if_true], hr, by simp only [pbIndirect, h7, h4, Bool.true_and]⟩

/-- A postbyte with bit 7 set is put together from what the decoder reads from it. -/
theorem postbyte1_pb (pb : Byte) (h : pb.getLsbD 7 = true) :
    postbyte1 (pbReg pb) (pbIndirect pb) (pb.extractLsb' 0 4) = pb := by
  revert pb; decide

/-- The same of a 5-bit offset. -/
theorem pb_off5 (r : IdxReg) (n : BitVec 5) :
    pbForm (0#1 ++ r.bits ++ n) = some (.plain (.off5 n)) ∧ pbReg (0#1 ++ r.bits ++ n) = r ∧
      pbIndirect (0#1 ++ r.bits ++ n) = false := by
  have h : ∀ (r : IdxReg) (n : BitVec 5), (0#1 ++ r.bits ++ n : Byte).getLsbD 7 = false ∧
      (0#1 ++ r.bits ++ n : Byte).extractLsb' 0 5 = n ∧
      IdxReg.ofBits ((0#1 ++ r.bits ++ n : Byte).extractLsb' 5 2) = r := by
    intro r
    cases r <;> decide
  obtain ⟨h7, hn, hr⟩ := h r n
  refine ⟨?_, hr, by simp only [pbIndirect, h7, Bool.false_and]⟩
  simp only [pbForm, h7, hn]
  rfl

theorem off5_pb (pb : Byte) (h : pb.getLsbD 7 = false) : 0#1 ++ (pbReg pb).bits ++ pb.extractLsb' 0 5 = pb := by
  revert pb; decide

/-- R126: decoding a well-formed indexed operand's bytes gives it back. -/
theorem decodeIndexed_encIndexed (x : Indexed) (h : x.wf = true) (rest : List Byte) :
    decodeIndexed (encIndexed x ++ rest) = .ok (x, rest) := by
  obtain ⟨r, m, ind⟩ := x
  cases m with
  | off5 n =>
    obtain ⟨h1, h2, h3⟩ := pb_off5 r n
    have hi : ind = false := by simpa [Indexed.wf] using h
    simp [encIndexed, decodeIndexed, h1, h2, h3, hi]
  | _ =>
    simp [Indexed.wf] at h
    try subst h
    simp only [encIndexed, List.cons_append, List.nil_append, decodeIndexed, pb_postbyte1]
    simp [pbForm1]

/-- The instance of a form with its offset is well-formed and encoded as it was read. -/
def PbForm.Faithful (r : IdxReg) (ind : Bool) (low : BitVec 4) : PbForm → Prop
  | .plain m => Indexed.wf ⟨r, m, ind⟩ = true ∧ encIndexed ⟨r, m, ind⟩ = [postbyte1 r ind low]
  | .byte f => ∀ n, Indexed.wf ⟨r, f n, ind⟩ = true ∧ encIndexed ⟨r, f n, ind⟩ = [postbyte1 r ind low, n]
  | .word f => ∀ w, Indexed.wf ⟨r, f w, ind⟩ = true ∧
      encIndexed ⟨r, f w, ind⟩ = [postbyte1 r ind low, hiByte w, loByte w]

theorem pbForm1_faithful (r : IdxReg) {ind : Bool} {low : BitVec 4} {p : PbForm} (h : pbForm1 ind low = some p) :
    p.Faithful r ind low := by
  obtain ⟨⟨k, hk⟩⟩ := low
  have hk' : k < 16 := hk
  interval_cases k <;> cases ind <;> cases h <;> first | exact ⟨rfl, rfl⟩ | exact fun _ => ⟨rfl, rfl⟩

/-- What the decoder answers is well-formed and is encoded by the bytes it consumed. -/
theorem encIndexed_decodeIndexed {bs rest : List Byte} {x : Indexed} (h : decodeIndexed bs = .ok (x, rest)) :
    x.wf = true ∧ encIndexed x ++ rest = bs := by
  cases bs with
  | nil => cases h
  | cons pb bs =>
  cases h7 : pb.getLsbD 7 with
  | false =>
    have e : pbForm pb = some (.plain (.off5 (pb.extractLsb' 0 5))) := by simp only [pbForm, h7]; rfl
    simp only [decodeIndexed, e, Except.ok.injEq, Prod.mk.injEq] at h
    obtain ⟨rfl, rfl⟩ := h
    refine ⟨by simp only [Indexed.wf, pbIndirect, h7]; rfl, ?_⟩
    simp only [encIndexed, List.cons_append, List.nil_append]
    rw [off5_pb pb h7]
  | true =>
    have e : pbForm pb = pbForm1 (pbIndirect pb) (pb.extractLsb' 0 4) := by
      simp only [pbForm, pbIndirect, h7, Bool.true_and, if_true]
    have k := postbyte1_pb pb h7
    simp only [decodeIndexed] at h
    cases hp : pbForm1 (pbIndirect pb) (pb.extractLsb' 0 4) with
    | none => rw [e, hp] at h; cases h
    | some p =>
      have f := pbForm1_faithful (pbReg pb) hp
      rw [e, hp] at h
      cases p with
      | plain m =>
        simp only [Except.ok.injEq, Prod.mk.injEq] at h
        obtain ⟨rfl, rfl⟩ := h
        exact ⟨f.1, by rw [f.2, k]; rfl⟩
      | byte g =>
        cases bs with
        | nil => cases h
        | cons n bs =>
          simp only [Except.ok.injEq, Prod.mk.injEq] at h
          obtain ⟨rfl, rfl⟩ := h
          exact ⟨(f n).1, by rw [(f n).2, k]; rfl⟩
      | word g =>
        match bs, h with
        | [], h => cases h
        | [_], h => cases h
        | a :: b :: bs, h =>
          simp only [Except.ok.injEq, Prod.mk.injEq] at h
          obtain ⟨rfl, rfl⟩ := h
          refine ⟨(f _).1, ?_⟩
          rw [(f _).2, k, hiByte_joinBytes, loByte_joinBytes]; rfl

/-! ### Opcode maps -/

/-- Every instruction a shape makes of an opcode byte is well-formed (an indexed one when its operand is), stands on
the page, and is encoded by that byte and the bytes it was made from. -/
def Shape.Faithful (pg : Page) (op : Byte) : Shape → Prop
  | .inh i => i.wf = true ∧ i.page = pg ∧ encodeOp i = [op]
  | .byte f => ∀ b, (f b).wf = true ∧ (f b).page = pg ∧ encodeOp (f b) = [op, b]
  | .word f => ∀ w, (f w).wf = true ∧ (f w).page = pg ∧ encodeOp (f w) = [op, hiByte w, loByte w]
  | .post f => ∀ b, (f b).wf = true ∧ (f b).page = pg ∧ encodeOp (f b) = [op, b]
  | .indexed f => ∀ x, (f x).wf = x.wf ∧ (f x).page = pg ∧ encodeOp (f x) = op :: encIndexed x

theorem pair_codes (b : Byte) :
    (TReg.ofCode (b.extractLsb' 4 4)).code ++ (TReg.ofCode (b.extractLsb' 0 4)).code = b := by
  revert b; decide

theorem shapeOf_page0_faithful (k : Nat) (hk : k < 256) :
    (shapeOf .page0 (BitVec.ofNat 8 k)).Faithful .page0 (BitVec.ofNat 8 k) := by
  interval_cases k <;> first | exact ⟨rfl, rfl, rfl⟩ | exact fun _ => ⟨rfl, rfl, rfl⟩ |
    (intro b; exact ⟨rfl, rfl, congrArg (fun x => [_, x]) (pair_codes b)⟩)

theorem shapeOf_page2_faithful (k : Nat) (hk : k < 256) :
    (shapeOf .page2 (BitVec.ofNat 8 k)).Faithful .page2 (BitVec.ofNat 8 k) := by
  interval_cases k <;> first | exact ⟨rfl, rfl, rfl⟩ | exact fun _ => ⟨rfl, rfl, rfl⟩

theorem shapeOf_page3_faithful (k : Nat) (hk : k < 256) :
    (shapeOf .page3 (BitVec.ofNat 8 k)).Faithful .page3 (BitVec.ofNat 8 k) := by
  interval_cases k <;> first | exact ⟨rfl, rfl, rfl⟩ | exact fun _ => ⟨rfl, rfl, rfl⟩

theorem shapeOf_faithful (pg : Page) (op : Byte) : (shapeOf pg op).Faithful pg op := by
  have e : op = BitVec.ofNat 8 op.toNat := by simp
  rw [e]
  cases pg
  · exact shapeOf_page0_faithful _ op.isLt
  · exact shapeOf_page2_faithful _ op.isLt
  · exact shapeOf_page3_faithful _ op.isLt

end Sys2Proof
end

