-- ==== Sys2Proof/Laws/Fetch.lean ====
section
/-! SUPPORT. Fetching under a host that does not interfere: the bytes at PC that the opcode byte and the postbyte ask
for, one bus cycle each. -/

namespace Sys2Proof.Machine

theorem fetchOperands_zero (s : State) : fetchOperands 0 s = ([], s) := rfl

theorem fetchOperands_one {s : State} (h : s.script = []) :
    fetchOperands 1 s = ([s.byteAt s.pc],
      { s.after [s.look s.pc] with pc := s.pc + 1#16, operand := s.operand ++ [s.byteAt s.pc] }) := by
  simp [fetchOperands, fetchOperand, fetchByte_quiet h]

theorem fetchOperands_two {s : State} (h : s.script = []) :
    fetchOperands 2 s = ([s.byteAt s.pc, s.byteAt (s.pc + 1#16)],
      { s.after [s.look s.pc, s.look (s.pc + 1#16)] with
        pc := s.pc + 2#16, operand := s.operand ++ [s.byteAt s.pc, s.byteAt (s.pc + 1#16)] }) := by
  simp [fetchOperands, fetchOperand, fetchByte_quiet, h, State.after, State.byteAt, State.look, BitVec.add_assoc]

theorem fetchPostbyte_quiet {s : State} (h : s.script = []) :
    fetchPostbyte s = (s.byteAt s.pc,
      { s.after [s.look s.pc] with pc := s.pc + 1#16, postbyte := some (s.byteAt s.pc) }) := by
  simp [fetchPostbyte, fetchByte_quiet h]

/-- An indexed form asks for no more than two offset bytes. -/
theorem pbOffsetBytes_le (pb : Byte) : pbOffsetBytes pb ≤ 2 := by
  unfold pbOffsetBytes; split <;> omega

/-- How many bytes an instruction of a page takes from its opcode byte on, by that byte and the next one. -/
def instrBytes (pg : Page) (op next : Byte) : Nat :=
  match shapeOf pg op with
  | .inh _ => 1
  | .byte _ | .post _ => 2
  | .word _ => 3
  | .indexed _ => 2 + pbOffsetBytes next

/-- The fetch: the bytes from PC on, in order, and nothing but PC, the cycles and the in-flight state is changed. -/
theorem fetchInstr_quiet {s : State} (h : s.script = []) (pg : Page) :
    ∃ (pb : Option Byte) (ops : List Byte) (n : Nat), n = instrBytes pg (s.byteAt s.pc) (s.byteAt (s.pc + 1#16)) ∧
      fetchInstr pg s =
        ([s.byteAt s.pc, s.byteAt (s.pc + 1#16), s.byteAt (s.pc + 2#16), s.byteAt (s.pc + 3#16)].take n,
         { s.after ([s.look s.pc, s.look (s.pc + 1#16), s.look (s.pc + 2#16), s.look (s.pc + 3#16)].take n) with
           pc := s.pc + BitVec.ofNat 16 n, opcode := some (s.byteAt s.pc), postbyte := pb, operand := ops }) := by
  cases hs : shapeOf pg (s.byteAt s.pc) with
  | inh i =>
    exact ⟨none, [], 1, by simp [instrBytes, hs], by simp [fetchInstr, fetchByte_quiet h, hs, fetchRest]⟩
  | byte f =>
    exact ⟨none, [s.byteAt (s.pc + 1#16)], 2, by simp [instrBytes, hs], by
      simp only [fetchInstr, fetchByte_quiet h, hs, fetchRest]
      simp [fetchOperands_one, h, State.after, State.byteAt, State.look,
        BitVec.add_assoc]⟩
  | post f =>
    exact ⟨some (s.byteAt (s.pc + 1#16)), [], 2, by simp [instrBytes, hs], by
      simp only [fetchInstr, fetchByte_quiet h, hs, fetchRest]
      simp [fetchPostbyte_quiet, h, State.after, State.byteAt,
        State.look, BitVec.add_assoc]⟩
  | word f =>
    exact ⟨none, [s.byteAt (s.pc + 1#16), s.byteAt (s.pc + 2#16)], 3, by simp [instrBytes, hs], by
      simp only [fetchInstr, fetchByte_quiet h, hs, fetchRest]
      simp [fetchOperands_two, h, State.after, State.byteAt, State.look,
        BitVec.add_assoc]⟩
  | indexed f =>
    have hn := pbOffsetBytes_le (s.byteAt (s.pc + 1#16))
    refine ⟨some (s.byteAt (s.pc + 1#16)),
      [s.byteAt (s.pc + 2#16), s.byteAt (s.pc + 3#16)].take (pbOffsetBytes (s.byteAt (s.pc + 1#16))), _, rfl, ?_⟩
    simp only [instrBytes, hs]
    generalize hk : pbOffsetBytes (s.byteAt (s.pc + 1#16)) = k at hn
    simp only [fetchInstr, fetchByte_quiet h, hs, fetchRest]
    interval_cases k <;> simp [State.byteAt] at hk <;>
      simp [fetchPostbyte_quiet, fetchOperands_zero, fetchOperands_one, fetchOperands_two, h, hk, State.after,
        State.look, BitVec.add_assoc, State.byteAt]

/-- R355 under such a host: 0x38 at PC, on page 0, where the parameter refuses it. -/
theorem refusedAtOpcode_quiet {s : State} (h : s.script = []) (pg : Page) :
    refusedAtOpcode pg s = (pg == .page0 && s.byteAt s.pc == 0x38#8 && s.params.illegalUncertain == .refuse) := by
  simp [refusedAtOpcode, fetchByte_quiet h]

/-- Bytes that decode, where no opcode is refused as such, are executed at the state after their fetch. -/
theorem runInstruction_of_decode {pg : Page} {s : State} {i : Instr} {rest : List Byte}
    (h : refusedAtOpcode pg s = false) (hd : decode pg (fetchInstr pg s).1 = .ok (i, rest)) :
    runInstruction pg s = exec i (fetchInstr pg s).2 := by
  simp [runInstruction, h, hd]

/-- The decoder consumes exactly the bytes the fetch takes. -/
theorem decode_take {pg : Page} {b0 b1 b2 b3 : Byte} {i : Instr} {rest : List Byte}
    (h : decode pg [b0, b1, b2, b3] = .ok (i, rest)) :
    rest.length = 4 - instrBytes pg b0 b1 ∧ instrBytes pg b0 b1 ≤ 4 ∧
      decode pg ([b0, b1, b2, b3].take (instrBytes pg b0 b1)) = .ok (i, []) := by
  have inj : ∀ {i j : Instr} {r t : List Byte},
      (Except.ok (i, r) : Except DecodeError (Instr × List Byte)) = .ok (j, t) → i = j ∧ r = t := by
    intro i j r t h; cases h; exact ⟨rfl, rfl⟩
  simp only [decode] at h
  unfold instrBytes
  cases hs : shapeOf pg b0 <;> rw [hs] at h
  case indexed f =>
    simp only [decodeShape, decodeIndexed] at h
    simp only [pbOffsetBytes]
    cases hp : pbForm b1 with
    | none => rw [hp] at h; cases h
    | some p =>
      rw [hp] at h
      cases p <;> (obtain ⟨rfl, rfl⟩ := inj h) <;> simp [decode, hs, decodeShape, decodeIndexed, hp]
  all_goals obtain ⟨rfl, rfl⟩ := inj h; simp [decode, hs, decodeShape]

end Sys2Proof.Machine
end

