-- ==== Sys2Proof/Laws/Memory.lean ====
section
/-! SUPPORT. The laws of memory: a read after a write, what a write leaves alone, and the canonical form. -/

namespace Sys2Proof.Machine

theorem Memory.read_filter_same (m : Memory) (a : Nat) :
    Memory.read (m.filter fun c => c.1 ≠ a) a = Config.memFill := by
  induction m with
  | nil => rfl
  | cons c rest ih =>
    by_cases h : c.1 = a
    · simpa [List.filter, h] using ih
    · simpa [List.filter, h, Memory.read] using ih

theorem Memory.read_filter_other (m : Memory) {a k : Nat} (h : k ≠ a) :
    Memory.read (m.filter fun c => c.1 ≠ a) k = m.read k := by
  induction m with
  | nil => rfl
  | cons c rest ih =>
    by_cases ha : c.1 = a
    · have : c.1 ≠ k := by omega
      simpa [List.filter, ha, Memory.read, h.symm] using ih
    · by_cases hk : c.1 = k
      · subst hk; simp [List.filter, h, Memory.read]
      · simpa [List.filter, ha, Memory.read, hk] using ih

theorem Memory.read_insert_same (m : Memory) (a : Nat) (v : Byte) : Memory.read (Memory.insert a v m) a = v := by
  induction m with
  | nil => simp [Memory.insert, Memory.read]
  | cons c rest ih =>
    unfold Memory.insert
    split
    · simp [Memory.read]
    · split
      · simp [Memory.read]
      · next h => simpa [Memory.read, Ne.symm h] using ih

theorem Memory.read_insert_other (m : Memory) {a k : Nat} (v : Byte) (h : k ≠ a) :
    Memory.read (Memory.insert a v m) k = m.read k := by
  induction m with
  | nil => simp [Memory.insert, Memory.read, h.symm]
  | cons c rest ih =>
    unfold Memory.insert
    split
    · simp [Memory.read, h.symm]
    · split
      · next e => subst e; simp [Memory.read, h.symm]
      · by_cases hk : c.1 = k
        · simp [Memory.read, hk]
        · simpa [Memory.read, hk] using ih

/-- A read after a write to the same address gives the byte written. -/
@[simp] theorem Memory.read_write_same (m : Memory) (a : Nat) (v : Byte) : (m.write a v).read a = v := by
  unfold Memory.write
  split
  · next h => rw [Memory.read_filter_same, h]
  · exact Memory.read_insert_same m a v

/-- A write leaves every other address alone. -/
theorem Memory.read_write_other (m : Memory) {a k : Nat} (v : Byte) (h : k ≠ a) :
    (m.write a v).read k = m.read k := by
  unfold Memory.write
  split
  · exact Memory.read_filter_other m h
  · exact Memory.read_insert_other m v h

/-- The canonical form, as rising keys and entries that must be listed. -/
theorem Memory.wf_iff (m : Memory) :
    m.wf = true ↔ m.Pairwise (·.1 < ·.1) ∧ ∀ c ∈ m, c.1 < 65536 ∧ c.2 ≠ Config.memFill := by
  induction m with
  | nil => simp [Memory.wf]
  | cons c rest ih =>
    cases rest with
    | nil => simp [Memory.wf]
    | cons d rest =>
      simp only [Memory.wf, Bool.and_eq_true, decide_eq_true_eq, ih]
      simp only [List.pairwise_cons, List.mem_cons, forall_eq_or_imp]
      constructor
      · rintro ⟨⟨h1, h2⟩, ⟨h3, h4⟩, h5, h6⟩
        refine ⟨⟨⟨h1, fun e he => ?_⟩, h3, h4⟩, ⟨by omega, by simpa using h2⟩, h5, h6⟩
        have := h3 e he; omega
      · rintro ⟨⟨⟨h1, -⟩, h3, h4⟩, ⟨-, h2⟩, h5, h6⟩
        exact ⟨⟨h1, by simpa using h2⟩, ⟨h3, h4⟩, h5, h6⟩

theorem Memory.mem_insert {m : Memory} {a : Nat} {v : Byte} {c : Host.Cell} (h : c ∈ Memory.insert a v m) :
    c = (a, v) ∨ c ∈ m := by
  induction m with
  | nil => simpa [Memory.insert] using h
  | cons d rest ih =>
    unfold Memory.insert at h
    split at h
    · simpa using h
    · split at h
      · simp at h ⊢; tauto
      · simp at h ⊢
        rcases h with h | h
        · tauto
        · rcases ih h with h | h <;> tauto

theorem Memory.pairwise_insert {m : Memory} (a : Nat) (v : Byte) (h : m.Pairwise (·.1 < ·.1)) :
    (Memory.insert a v m).Pairwise (·.1 < ·.1) := by
  induction m with
  | nil => simp [Memory.insert]
  | cons d rest ih =>
    simp only [List.pairwise_cons] at h
    unfold Memory.insert
    split
    · next hlt =>
      simp only [List.pairwise_cons, List.mem_cons, forall_eq_or_imp]
      exact ⟨⟨hlt, fun e he => by have := h.1 e he; omega⟩, h⟩
    · split
      · next heq => subst heq; simpa using h
      · simp only [List.pairwise_cons]
        refine ⟨fun e he => ?_, ih h.2⟩
        rcases Memory.mem_insert he with he | he
        · subst he; simp; omega
        · exact h.1 e he

/-- Every memory operation keeps the canonical form: it is built from writes. -/
theorem Memory.write_wf {m : Memory} {a : Nat} (v : Byte) (ha : a < 65536) (h : m.wf = true) :
    (m.write a v).wf = true := by
  rw [Memory.wf_iff] at h ⊢
  unfold Memory.write
  split
  · exact ⟨h.1.sublist List.filter_sublist, fun c hc => h.2 c (List.mem_of_mem_filter hc)⟩
  · next hv =>
    refine ⟨Memory.pairwise_insert a v h.1, fun c hc => ?_⟩
    rcases Memory.mem_insert hc with hc | hc
    · subst hc; exact ⟨ha, hv⟩
    · exact h.2 c hc

theorem State.reset_mem_wf : State.reset.mem.wf = true := rfl

end Sys2Proof.Machine
end

