-- ==== Sys2Proof/Laws/Scheduler.lean ====
section
/-! SUPPORT. The event scheduler: finding an event after a write, and that every operation keeps the scheduler
consistent. -/

namespace Sys2Proof.Machine

theorem findEvent_putEvent_same (e : EventId) (ev : Event) (l : List (EventId × Event)) :
    findEvent e (putEvent e ev l) = some ev := by
  induction l with
  | nil => simp [putEvent, findEvent]
  | cons p l ih =>
    obtain ⟨k, w⟩ := p
    simp only [putEvent]
    split
    · simp [findEvent]
    · split
      · simp [findEvent]
      · next h => simp [findEvent, ih, Ne.symm h]

theorem findEvent_putEvent_other {e k : EventId} (ev : Event) (l : List (EventId × Event)) (h : k ≠ e) :
    findEvent k (putEvent e ev l) = findEvent k l := by
  induction l with
  | nil => simp [putEvent, findEvent, Ne.symm h]
  | cons p l ih =>
    obtain ⟨j, w⟩ := p
    simp only [putEvent]
    split
    · simp [findEvent, Ne.symm h]
    · split
      · next h' => subst h'; simp [findEvent, Ne.symm h]
      · simp [findEvent, ih]

theorem findEvent_eraseEvent (e k : EventId) (l : List (EventId × Event)) :
    findEvent k (eraseEvent e l) = if k = e then none else findEvent k l := by
  induction l with
  | nil => simp [eraseEvent, findEvent]
  | cons p l ih =>
    obtain ⟨j, w⟩ := p
    have hc : eraseEvent e ((j, w) :: l) = if j = e then eraseEvent e l else (j, w) :: eraseEvent e l := by
      by_cases hj : j = e <;> simp [eraseEvent, hj]
    rw [hc]
    by_cases hj : j = e
    · subst hj
      by_cases hk : k = j
      · subst hk; simp [ih]
      · simp [ih, hk, findEvent, Ne.symm hk]
    · by_cases hk : k = e
      · subst hk; simp [ih, hj, findEvent]
      · simp [ih, hj, hk, findEvent]

@[simp] theorem Sched.find_put_same (sc : Sched) (e : EventId) (ev : Event) : (sc.put e ev).find e = some ev :=
  findEvent_putEvent_same e ev _

theorem Sched.find_put (sc : Sched) (e k : EventId) (ev : Event) :
    (sc.put e ev).find k = if k = e then some ev else sc.find k := by
  split
  · next h => subst h; simp
  · next h => exact findEvent_putEvent_other ev _ h

@[simp] theorem Sched.getList_put (sc : Sched) (e : EventId) (ev : Event) (l : ListId) :
    (sc.put e ev).getList l = sc.getList l := by cases l <;> rfl

@[simp] theorem Sched.find_setList (sc : Sched) (l : ListId) (es : List EventId) (k : EventId) :
    (sc.setList l es).find k = sc.find k := by cases l <;> rfl

theorem Sched.getList_setList (sc : Sched) (l k : ListId) (es : List EventId) :
    (sc.setList l es).getList k = if k = l then es else sc.getList k := by cases l <;> cases k <;> rfl

/-- R551: the entries before the new one are those not later than it. -/
theorem Sched.insert_eq (sc : Sched) (t : Tick) (e : EventId) (es : List EventId) :
    ∃ before later, es = before ++ later ∧ sc.insert t e es = before ++ e :: later ∧
      (∀ x ∈ before, 0 ≤ tdiff t (sc.deadline x)) ∧ (∀ x, later.head? = some x → tdiff t (sc.deadline x) < 0) := by
  induction es with
  | nil => exact ⟨[], [], by simp [Sched.insert]⟩
  | cons y ys ih =>
    by_cases h : tdiff t (sc.deadline y) < 0
    · exact ⟨[], y :: ys, by simp [Sched.insert, h]⟩
    · obtain ⟨b, l, h1, h2, h3, h4⟩ := ih
      refine ⟨y :: b, l, by simp [h1], by simp [Sched.insert, h, h2], ?_, h4⟩
      intro x hx
      rcases List.mem_cons.mp hx with rfl | hx
      · omega
      · exact h3 x hx

/-- The scheduler is consistent, said list by list. -/
theorem Sched.consistent_iff (sc : Sched) : sc.consistent ↔
    (∀ l, (sc.getList l).Nodup) ∧ (∀ l e, e ∈ sc.getList l ↔ ∃ ev, sc.find e = some ev ∧ ev.list = some l) ∧
    (∀ e ev, sc.find e = some ev → (ev.list = none ↔ ev.queued = false)) := by
  constructor
  · rintro ⟨h1, h2, h3, h4, h5⟩
    exact ⟨fun l => by cases l <;> assumption, fun l => by cases l <;> assumption, h5⟩
  · rintro ⟨h1, h2, h3⟩
    exact ⟨h1 .ui, h1 .machine, h2 .ui, h2 .machine, h3⟩

/-- Writing an event that is on no list, so that it still is on none, keeps the scheduler consistent. -/
theorem Sched.put_consistent {sc : Sched} (c : sc.consistent) (e : EventId) (t : Tick) (cb : CallbackId)
    (h : ∀ ev, sc.find e = some ev → ev.list = none) : (sc.put e ⟨t, cb, false, none⟩).consistent := by
  rw [Sched.consistent_iff] at *
  obtain ⟨h1, h2, h3⟩ := c
  refine ⟨by simpa using h1, ?_, ?_⟩
  · intro l k
    by_cases hk : k = e
    · subst hk
      simp [h2]
      intro ev hev; simp [h ev hev]
    · simp [Sched.find_put, hk, h2]
  · intro k ev hev
    by_cases hk : k = e
    · subst hk; simp at hev; subst hev; simp
    · simp [Sched.find_put, hk] at hev; exact h3 k ev hev

theorem Sched.init_consistent {sc sc' : Sched} (c : sc.consistent) {e : EventId} {cb : CallbackId} {t : Tick}
    (h : sc.init e cb t = .ok sc') : sc'.consistent := by
  unfold Sched.init at h
  split at h
  · cases h
  · next hn =>
    cases h
    refine Sched.put_consistent c e t cb fun ev hev => ?_
    have h3 := ((Sched.consistent_iff sc).mp c).2.2 e ev hev
    obtain ⟨t', cb', q, l⟩ := ev
    cases q
    · simpa using h3
    · exact absurd hev (hn t' cb' l)

theorem Sched.setDeadline_consistent {sc sc' : Sched} (c : sc.consistent) {e : EventId} {t : Tick}
    (h : sc.setDeadline e t = .ok sc') : sc'.consistent := by
  unfold Sched.setDeadline at h
  split at h
  · cases h
  · next ev hev =>
    split at h
    · cases h
    · next hq =>
      cases h
      have h3 := ((Sched.consistent_iff sc).mp c).2.2 e ev hev
      obtain ⟨t', cb', q, l⟩ := ev
      simp at hq; subst hq
      have hl : l = none := by simpa using h3
      subst hl
      exact Sched.put_consistent c e t cb' fun ev' h' => by rw [hev] at h'; cases h'; rfl

theorem Sched.queue_consistent {sc sc' : Sched} (c : sc.consistent) {cycle : Tick} {l : ListId} {e : EventId}
    (h : sc.queue cycle l e = .ok sc') : sc'.consistent := by
  unfold Sched.queue at h
  split at h
  · cases h
  next ev hev =>
  split at h
  · cases h
  next hq =>
  split at h
  · cases h
    rw [Sched.consistent_iff] at *
    obtain ⟨h1, h2, h3⟩ := c
    have hl : ev.list = none := (h3 e ev hev).mpr (by simpa using hq)
    have hn : ∀ l, e ∉ sc.getList l := by
      intro l he
      obtain ⟨ev', h', hl'⟩ := (h2 l e).mp he
      rw [hev] at h'; cases h'; simp [hl] at hl'
    obtain ⟨b, r, e1, e2, -, -⟩ := sc.insert_eq ev.atTick e (sc.getList l)
    refine ⟨?_, ?_, ?_⟩
    · intro k
      simp only [Sched.getList_put, Sched.getList_setList]
      split
      · next hk =>
        subst hk
        have n1 := h1 k
        have n2 := hn k
        rw [e2]
        rw [e1] at n1 n2
        simp only [List.nodup_append, List.nodup_cons, List.mem_append, List.mem_cons, not_or] at *
        refine ⟨n1.1, ⟨n2.2, n1.2.1⟩, ?_⟩
        intro x hx y hy
        rcases hy with rfl | hy
        · intro hxy; exact n2.1 (hxy ▸ hx)
        · exact n1.2.2 x hx y hy
      · exact h1 k
    · intro k x
      by_cases hx : x = e
      · subst hx
        by_cases hk : k = l
        · subst hk; simp [Sched.getList_setList, e2]
        · simp [Sched.getList_setList, hk, hn k]; exact fun h => hk h.symm
      · simp only [Sched.getList_put, Sched.getList_setList, Sched.find_put, hx, Sched.find_setList, if_false]
        rw [← h2]
        split
        · next hk =>
          subst hk; rw [e2]
          have := congrArg (x ∈ ·) e1
          simp only [List.mem_append, List.mem_cons, hx, false_or] at *
          rw [this]
        · rfl
    · intro k w hw
      by_cases hk : k = e
      · subst hk; simp at hw; subst hw; simp
      · simp [Sched.find_put, hk] at hw; exact h3 k w hw
  · cases h

/-- Taking an event off its list, its deadline and callback kept, keeps the scheduler consistent. -/
theorem Sched.remove_consistent {sc : Sched} (c : sc.consistent) {e : EventId} {ev : Event} {l : ListId}
    (hev : sc.find e = some ev) (hl : ev.list = some l) {es : List EventId} (hn : es.Nodup)
    (hes : ∀ x, x ∈ es ↔ x ∈ sc.getList l ∧ x ≠ e) (t : Tick) (cb : CallbackId) :
    ((sc.setList l es).put e ⟨t, cb, false, none⟩).consistent := by
  rw [Sched.consistent_iff] at *
  obtain ⟨h1, h2, h3⟩ := c
  refine ⟨?_, ?_, ?_⟩
  · intro k
    simp only [Sched.getList_put, Sched.getList_setList]
    split
    · exact hn
    · exact h1 k
  · intro k x
    by_cases hx : x = e
    · subst hx
      by_cases hk : k = l
      · subst hk; simp [Sched.getList_setList, hes]
      · simp [Sched.getList_setList, hk, h2, hev, hl]; exact fun h => hk h.symm
    · simp only [Sched.getList_put, Sched.getList_setList, Sched.find_put, hx, Sched.find_setList, if_false]
      rw [← h2]
      split
      · next hk => subst hk; simp [hes, hx]
      · rfl
  · intro k w hw
    by_cases hk : k = e
    · subst hk; simp at hw; subst hw; simp
    · simp [Sched.find_put, hk] at hw; exact h3 k w hw

theorem Sched.dequeue_consistent {sc : Sched} (c : sc.consistent) (e : EventId) : (sc.dequeue e).consistent := by
  unfold Sched.dequeue
  split
  · next t cb l hev =>
    refine Sched.remove_consistent c hev rfl ?_ ?_ t cb
    · exact (((Sched.consistent_iff sc).mp c).1 l).filter _
    · intro x; simp
  · exact c

theorem Sched.popHead_consistent {sc : Sched} (c : sc.consistent) (l : ListId) : (sc.popHead l).1.consistent := by
  unfold Sched.popHead
  split
  · exact c
  next e es hl =>
  have h := (Sched.consistent_iff sc).mp c
  have hn := h.1 l
  rw [hl] at hn
  obtain ⟨ev, hev, hel⟩ := (h.2.1 l e).mp (by simp [hl])
  simp only [hev]
  refine Sched.remove_consistent c hev hel (List.nodup_cons.mp hn).2 ?_ ev.atTick ev.callback
  intro x
  have := (List.nodup_cons.mp hn).1
  rw [hl]
  simp only [List.mem_cons]
  constructor
  · intro hx; exact ⟨.inr hx, fun h => this (h ▸ hx)⟩
  · rintro ⟨rfl | hx, hne⟩
    · exact absurd rfl hne
    · exact hx

theorem Sched.free_consistent {sc sc' : Sched} (c : sc.consistent) {e : EventId}
    (h : sc.free e = .ok sc') : sc'.consistent := by
  unfold Sched.free at h
  split at h
  · cases h
  next ev hev =>
  split at h
  · cases h
  next hq =>
  cases h
  rw [Sched.consistent_iff] at *
  obtain ⟨h1, h2, h3⟩ := c
  have hl : ev.list = none := (h3 e ev hev).mpr (by simpa using hq)
  have hg : ∀ l, Sched.getList { sc with events := eraseEvent e sc.events } l = sc.getList l := by
    intro l; cases l <;> rfl
  have hf : ∀ k, Sched.find { sc with events := eraseEvent e sc.events } k = if k = e then none else sc.find k :=
    fun k => findEvent_eraseEvent e k _
  refine ⟨fun l => by rw [hg]; exact h1 l, ?_, ?_⟩
  · intro l k
    rw [hg, h2, hf]
    by_cases hk : k = e
    · subst hk; simp [hev, hl]
    · simp [hk]
  · intro k w hw
    rw [hf] at hw
    by_cases hk : k = e
    · simp [hk] at hw
    · simp [hk] at hw; exact h3 k w hw

end Sys2Proof.Machine
end

