-- ==== Sys2Proof/Laws/Host.lean ====
section
/-! SUPPORT. What a bus cycle can do whatever the host does inside it: `Kept` says all of it, and the operations made
of bus cycles keep each register. -/

namespace Sys2Proof.Machine

/-- `t` is `s` after bus cycles and moves of the host: no register is touched, memory stays in canonical form, the
scheduler consistent and an NMI requested only while armed, and every bus cycle seen is one tick. -/
structure Kept (p q : State) : Prop where
  a : q.a = p.a
  b : q.b = p.b
  x : q.x = p.x
  y : q.y = p.y
  u : q.u = p.u
  s : q.s = p.s
  pc : q.pc = p.pc
  dp : q.dp = p.dp
  cc : q.cc = p.cc
  nmiArmed : q.nmiArmed = p.nmiArmed
  phase : q.phase = p.phase
  viaCwai : q.viaCwai = p.viaCwai
  irqSel : q.irqSel = p.irqSel
  opcode : q.opcode = p.opcode
  postbyte : q.postbyte = p.postbyte
  operand : q.operand = p.operand
  params : q.params = p.params
  wf : p.mem.wf = true → q.mem.wf = true
  consistent : p.sched.consistent → q.sched.consistent
  nmiReq : (p.nmiRequest = true → p.nmiArmed = true) → q.nmiRequest = true → q.nmiArmed = true
  seen : ∃ os : List Obs, q.trace = os ++ p.trace ∧
    q.cycle = p.cycle + BitVec.ofNat 32 (os.filter Obs.isBus).length

theorem Kept.refl (s : State) : Kept s s := by
  constructor <;> first | rfl | exact id | exact ⟨[], by simp⟩

theorem Kept.trans {s t u : State} (h : Kept s t) (k : Kept t u) : Kept s u := by
  obtain ⟨os, ht, hc⟩ := h.seen
  obtain ⟨ps, kt, kc⟩ := k.seen
  constructor
  · exact k.a.trans h.a
  · exact k.b.trans h.b
  · exact k.x.trans h.x
  · exact k.y.trans h.y
  · exact k.u.trans h.u
  · exact k.s.trans h.s
  · exact k.pc.trans h.pc
  · exact k.dp.trans h.dp
  · exact k.cc.trans h.cc
  · exact k.nmiArmed.trans h.nmiArmed
  · exact k.phase.trans h.phase
  · exact k.viaCwai.trans h.viaCwai
  · exact k.irqSel.trans h.irqSel
  · exact k.opcode.trans h.opcode
  · exact k.postbyte.trans h.postbyte
  · exact k.operand.trans h.operand
  · exact k.params.trans h.params
  · exact fun w => k.wf (h.wf w)
  · exact fun c => k.consistent (h.consistent c)
  · exact fun n => k.nmiReq (h.nmiReq n)
  · exact ⟨ps ++ os, by simp [kt, ht], by simp [kc, hc, BitVec.ofNat_add]; ac_rfl⟩

/-- A move of the host inside a callout (R560). -/
theorem Kept.innerMove (s : State) (m : HostMove) : Kept s (innerMove s m) := by
  cases m with
  | setLine l v =>
    cases l <;> constructor <;> first | rfl | exact id | exact ⟨[], by simp [Machine.innerMove, setLine]⟩ | skip
    intro n
    simp only [Machine.innerMove, setLine, Bool.or_eq_true, Bool.and_eq_true]
    rintro (h | ⟨_, h⟩)
    · exact n h
    · exact h
  | setHalt v => constructor <;> first | rfl | exact id | exact ⟨[], by simp [Machine.innerMove]⟩
  | setRunning v => constructor <;> first | rfl | exact id | exact ⟨[], by simp [Machine.innerMove]⟩
  | init e cb =>
    cases hq : s.sched.init e cb (Config.freeTick s.freeCount) <;>
      simp only [Machine.innerMove, hq, State.withSched] <;>
      constructor <;> first | rfl | exact id | exact ⟨[], by simp⟩ | exact fun c => Sched.init_consistent c hq
  | queue l e =>
    cases hq : s.sched.queue s.cycle l e <;> simp only [Machine.innerMove, hq, State.withSched] <;>
      constructor <;> first | rfl | exact id | exact ⟨[], by simp⟩ | exact fun c => Sched.queue_consistent c hq
  | dequeue e =>
    constructor <;> first | rfl | exact id | exact ⟨[], by simp [Machine.innerMove]⟩ |
      exact fun c => Sched.dequeue_consistent c e
  | dispatchNext l =>
    simp only [Machine.innerMove, dispatchHead]
    split
    · constructor <;> first | rfl | exact id | exact ⟨[], by simp⟩ | exact fun c => Sched.popHead_consistent c l
    · next e cb _ =>
      constructor <;> first | rfl | exact id | exact ⟨[.callback e cb], by simp [Obs.isBus]⟩ |
        exact fun c => Sched.popHead_consistent c l
  | free e =>
    cases hq : s.sched.free e <;> simp only [Machine.innerMove, hq, State.withSched] <;>
      constructor <;> first | rfl | exact id | exact ⟨[], by simp⟩ | exact fun c => Sched.free_consistent c hq
  | setDeadline e t =>
    cases hq : s.sched.setDeadline e t <;> simp only [Machine.innerMove, hq, State.withSched] <;>
      constructor <;> first | rfl | exact id | exact ⟨[], by simp⟩ | exact fun c => Sched.setDeadline_consistent c hq
  | poke a v =>
    constructor <;> first | rfl | exact id | exact ⟨[], by simp [Machine.innerMove]⟩ |
      exact Memory.write_wf v a.isLt
  | reset => constructor <;> first | rfl | exact id | exact ⟨[], by simp [Machine.innerMove]⟩
  | jump pc => constructor <;> first | rfl | exact id | exact ⟨[], by simp [Machine.innerMove]⟩
  | run => constructor <;> first | rfl | exact id | exact ⟨[], by simp [Machine.innerMove]⟩

theorem Kept.foldl (ms : List HostMove) (s : State) : Kept s (ms.foldl Machine.innerMove s) := by
  induction ms generalizing s with
  | nil => exact .refl s
  | cons m ms ih => exact (Kept.innerMove s m).trans (ih _)

theorem Kept.callout (s : State) : Kept s (callout s) := by
  unfold Machine.callout
  split
  · exact .refl s
  · next rest _ =>
    refine Kept.trans (t := { s with script := rest }) ?_ (Kept.foldl _ _)
    constructor <;> first | rfl | exact id | exact ⟨[], by simp⟩

theorem Kept.tick (o : Obs) (ho : o.isBus = true) (s : State) : Kept s (s.tick o) := by
  constructor <;> first | rfl | exact id | exact ⟨[o], by simp [ho]⟩

theorem Kept.readCycle (a : Word) (s : State) : Kept s (readCycle a s).2 :=
  (Kept.callout s).trans (Kept.tick _ rfl _)

theorem Kept.writeCycle (a : Word) (v : Byte) (s : State) : Kept s (writeCycle a v s) := by
  refine (Kept.callout s).trans ?_
  refine Kept.trans (t := { Machine.callout s with mem := (Machine.callout s).mem.write a.toNat v }) ?_ (Kept.tick _ rfl _)
  constructor <;> first | rfl | exact id | exact ⟨[], by simp⟩ | exact Memory.write_wf v a.isLt

theorem Kept.dummy (a : Word) (s : State) : Kept s (dummy a s) := Kept.readCycle a s

theorem Kept.filler (s : State) : Kept s (filler s) := Kept.dummy _ s

theorem Kept.fillers (n : Nat) (s : State) : Kept s (fillers n s) := by
  induction n generalizing s with
  | zero => exact .refl s
  | succ n ih => exact (Kept.filler s).trans (ih _)

theorem Kept.readWord (a : Word) (s : State) : Kept s (readWord a s).2 :=
  (Kept.readCycle a s).trans (Kept.readCycle _ _)

theorem Kept.writeWord (a v : Word) (s : State) : Kept s (writeWord a v s) :=
  (Kept.writeCycle a _ s).trans (Kept.writeCycle _ _ _)

/-! ### The cycle counter -/

@[simp] theorem setLine_cycle (l : LineId) (v : Bool) (s : State) : (setLine l v s).cycle = s.cycle := by
  cases l <;> rfl

@[simp] theorem withSched_cycle (r : Except Fault Sched) (s : State) : (s.withSched r).cycle = s.cycle := by
  cases r <;> rfl

@[simp] theorem dispatchHead_cycle (l : ListId) (s : State) : (dispatchHead l s).cycle = s.cycle := by
  unfold dispatchHead; split <;> rfl

@[simp] theorem innerMove_cycle (s : State) (m : HostMove) : (innerMove s m).cycle = s.cycle := by
  cases m <;> simp [innerMove, State.raise]

@[simp] theorem foldl_innerMove_cycle (ms : List HostMove) (s : State) :
    (ms.foldl innerMove s).cycle = s.cycle := by
  induction ms generalizing s with
  | nil => rfl
  | cons m ms ih => simp [ih]

@[simp] theorem callout_cycle (s : State) : (callout s).cycle = s.cycle := by
  unfold callout; split <;> simp

@[simp] theorem readCycle_cycle (a : Word) (s : State) : (readCycle a s).2.cycle = s.cycle + 1#32 := by
  simp [readCycle]

@[simp] theorem writeCycle_cycle (a : Word) (v : Byte) (s : State) : (writeCycle a v s).cycle = s.cycle + 1#32 := by
  simp [writeCycle]

@[simp] theorem dummy_cycle (a : Word) (s : State) : (dummy a s).cycle = s.cycle + 1#32 := readCycle_cycle a s

@[simp] theorem filler_cycle (s : State) : (filler s).cycle = s.cycle + 1#32 := dummy_cycle _ s

/-! ### Each register over each operation -/

@[simp] theorem readCycle_a (a : Word) (s : State) : (readCycle a s).2.a = s.a := (Kept.readCycle a s).a
@[simp] theorem readCycle_b (a : Word) (s : State) : (readCycle a s).2.b = s.b := (Kept.readCycle a s).b
@[simp] theorem readCycle_x (a : Word) (s : State) : (readCycle a s).2.x = s.x := (Kept.readCycle a s).x
@[simp] theorem readCycle_y (a : Word) (s : State) : (readCycle a s).2.y = s.y := (Kept.readCycle a s).y
@[simp] theorem readCycle_u (a : Word) (s : State) : (readCycle a s).2.u = s.u := (Kept.readCycle a s).u
@[simp] theorem readCycle_s (a : Word) (s : State) : (readCycle a s).2.s = s.s := (Kept.readCycle a s).s
@[simp] theorem readCycle_pc (a : Word) (s : State) : (readCycle a s).2.pc = s.pc := (Kept.readCycle a s).pc
@[simp] theorem readCycle_dp (a : Word) (s : State) : (readCycle a s).2.dp = s.dp := (Kept.readCycle a s).dp
@[simp] theorem readCycle_cc (a : Word) (s : State) : (readCycle a s).2.cc = s.cc := (Kept.readCycle a s).cc
@[simp] theorem readCycle_nmiArmed (a : Word) (s : State) : (readCycle a s).2.nmiArmed = s.nmiArmed := (Kept.readCycle a s).nmiArmed
@[simp] theorem readCycle_phase (a : Word) (s : State) : (readCycle a s).2.phase = s.phase := (Kept.readCycle a s).phase
@[simp] theorem readCycle_viaCwai (a : Word) (s : State) : (readCycle a s).2.viaCwai = s.viaCwai := (Kept.readCycle a s).viaCwai
@[simp] theorem readCycle_irqSel (a : Word) (s : State) : (readCycle a s).2.irqSel = s.irqSel := (Kept.readCycle a s).irqSel
@[simp] theorem readCycle_opcode (a : Word) (s : State) : (readCycle a s).2.opcode = s.opcode := (Kept.readCycle a s).opcode
@[simp] theorem readCycle_postbyte (a : Word) (s : State) : (readCycle a s).2.postbyte = s.postbyte := (Kept.readCycle a s).postbyte
@[simp] theorem readCycle_operand (a : Word) (s : State) : (readCycle a s).2.operand = s.operand := (Kept.readCycle a s).operand
@[simp] theorem readCycle_params (a : Word) (s : State) : (readCycle a s).2.params = s.params := (Kept.readCycle a s).params

@[simp] theorem writeCycle_a (a : Word) (v : Byte) (s : State) : (writeCycle a v s).a = s.a := (Kept.writeCycle a v s).a
@[simp] theorem writeCycle_b (a : Word) (v : Byte) (s : State) : (writeCycle a v s).b = s.b := (Kept.writeCycle a v s).b
@[simp] theorem writeCycle_x (a : Word) (v : Byte) (s : State) : (writeCycle a v s).x = s.x := (Kept.writeCycle a v s).x
@[simp] theorem writeCycle_y (a : Word) (v : Byte) (s : State) : (writeCycle a v s).y = s.y := (Kept.writeCycle a v s).y
@[simp] theorem writeCycle_u (a : Word) (v : Byte) (s : State) : (writeCycle a v s).u = s.u := (Kept.writeCycle a v s).u
@[simp] theorem writeCycle_s (a : Word) (v : Byte) (s : State) : (writeCycle a v s).s = s.s := (Kept.writeCycle a v s).s
@[simp] theorem writeCycle_pc (a : Word) (v : Byte) (s : State) : (writeCycle a v s).pc = s.pc := (Kept.writeCycle a v s).pc
@[simp] theorem writeCycle_dp (a : Word) (v : Byte) (s : State) : (writeCycle a v s).dp = s.dp := (Kept.writeCycle a v s).dp
@[simp] theorem writeCycle_cc (a : Word) (v : Byte) (s : State) : (writeCycle a v s).cc = s.cc := (Kept.writeCycle a v s).cc
@[simp] theorem writeCycle_nmiArmed (a : Word) (v : Byte) (s : State) : (writeCycle a v s).nmiArmed = s.nmiArmed := (Kept.writeCycle a v s).nmiArmed
@[simp] theorem writeCycle_phase (a : Word) (v : Byte) (s : State) : (writeCycle a v s).phase = s.phase := (Kept.writeCycle a v s).phase
@[simp] theorem writeCycle_viaCwai (a : Word) (v : Byte) (s : State) : (writeCycle a v s).viaCwai = s.viaCwai := (Kept.writeCycle a v s).viaCwai
@[simp] theorem writeCycle_irqSel (a : Word) (v : Byte) (s : State) : (writeCycle a v s).irqSel = s.irqSel := (Kept.writeCycle a v s).irqSel
@[simp] theorem writeCycle_opcode (a : Word) (v : Byte) (s : State) : (writeCycle a v s).opcode = s.opcode := (Kept.writeCycle a v s).opcode
@[simp] theorem writeCycle_postbyte (a : Word) (v : Byte) (s : State) : (writeCycle a v s).postbyte = s.postbyte := (Kept.writeCycle a v s).postbyte
@[simp] theorem writeCycle_operand (a : Word) (v : Byte) (s : State) : (writeCycle a v s).operand = s.operand := (Kept.writeCycle a v s).operand
@[simp] theorem writeCycle_params (a : Word) (v : Byte) (s : State) : (writeCycle a v s).params = s.params := (Kept.writeCycle a v s).params

@[simp] theorem dummy_a (a : Word) (s : State) : (dummy a s).a = s.a := (Kept.dummy a s).a
@[simp] theorem dummy_b (a : Word) (s : State) : (dummy a s).b = s.b := (Kept.dummy a s).b
@[simp] theorem dummy_x (a : Word) (s : State) : (dummy a s).x = s.x := (Kept.dummy a s).x
@[simp] theorem dummy_y (a : Word) (s : State) : (dummy a s).y = s.y := (Kept.dummy a s).y
@[simp] theorem dummy_u (a : Word) (s : State) : (dummy a s).u = s.u := (Kept.dummy a s).u
@[simp] theorem dummy_s (a : Word) (s : State) : (dummy a s).s = s.s := (Kept.dummy a s).s
@[simp] theorem dummy_pc (a : Word) (s : State) : (dummy a s).pc = s.pc := (Kept.dummy a s).pc
@[simp] theorem dummy_dp (a : Word) (s : State) : (dummy a s).dp = s.dp := (Kept.dummy a s).dp
@[simp] theorem dummy_cc (a : Word) (s : State) : (dummy a s).cc = s.cc := (Kept.dummy a s).cc
@[simp] theorem dummy_nmiArmed (a : Word) (s : State) : (dummy a s).nmiArmed = s.nmiArmed := (Kept.dummy a s).nmiArmed
@[simp] theorem dummy_phase (a : Word) (s : State) : (dummy a s).phase = s.phase := (Kept.dummy a s).phase
@[simp] theorem dummy_viaCwai (a : Word) (s : State) : (dummy a s).viaCwai = s.viaCwai := (Kept.dummy a s).viaCwai
@[simp] theorem dummy_irqSel (a : Word) (s : State) : (dummy a s).irqSel = s.irqSel := (Kept.dummy a s).irqSel
@[simp] theorem dummy_opcode (a : Word) (s : State) : (dummy a s).opcode = s.opcode := (Kept.dummy a s).opcode
@[simp] theorem dummy_postbyte (a : Word) (s : State) : (dummy a s).postbyte = s.postbyte := (Kept.dummy a s).postbyte
@[simp] theorem dummy_operand (a : Word) (s : State) : (dummy a s).operand = s.operand := (Kept.dummy a s).operand
@[simp] theorem dummy_params (a : Word) (s : State) : (dummy a s).params = s.params := (Kept.dummy a s).params

@[simp] theorem filler_a (s : State) : (filler s).a = s.a := (Kept.filler s).a
@[simp] theorem filler_b (s : State) : (filler s).b = s.b := (Kept.filler s).b
@[simp] theorem filler_x (s : State) : (filler s).x = s.x := (Kept.filler s).x
@[simp] theorem filler_y (s : State) : (filler s).y = s.y := (Kept.filler s).y
@[simp] theorem filler_u (s : State) : (filler s).u = s.u := (Kept.filler s).u
@[simp] theorem filler_s (s : State) : (filler s).s = s.s := (Kept.filler s).s
@[simp] theorem filler_pc (s : State) : (filler s).pc = s.pc := (Kept.filler s).pc
@[simp] theorem filler_dp (s : State) : (filler s).dp = s.dp := (Kept.filler s).dp
@[simp] theorem filler_cc (s : State) : (filler s).cc = s.cc := (Kept.filler s).cc
@[simp] theorem filler_nmiArmed (s : State) : (filler s).nmiArmed = s.nmiArmed := (Kept.filler s).nmiArmed
@[simp] theorem filler_phase (s : State) : (filler s).phase = s.phase := (Kept.filler s).phase
@[simp] theorem filler_viaCwai (s : State) : (filler s).viaCwai = s.viaCwai := (Kept.filler s).viaCwai
@[simp] theorem filler_irqSel (s : State) : (filler s).irqSel = s.irqSel := (Kept.filler s).irqSel
@[simp] theorem filler_opcode (s : State) : (filler s).opcode = s.opcode := (Kept.filler s).opcode
@[simp] theorem filler_postbyte (s : State) : (filler s).postbyte = s.postbyte := (Kept.filler s).postbyte
@[simp] theorem filler_operand (s : State) : (filler s).operand = s.operand := (Kept.filler s).operand
@[simp] theorem filler_params (s : State) : (filler s).params = s.params := (Kept.filler s).params

@[simp] theorem fillers_a (n : Nat) (s : State) : (fillers n s).a = s.a := (Kept.fillers n s).a
@[simp] theorem fillers_b (n : Nat) (s : State) : (fillers n s).b = s.b := (Kept.fillers n s).b
@[simp] theorem fillers_x (n : Nat) (s : State) : (fillers n s).x = s.x := (Kept.fillers n s).x
@[simp] theorem fillers_y (n : Nat) (s : State) : (fillers n s).y = s.y := (Kept.fillers n s).y
@[simp] theorem fillers_u (n : Nat) (s : State) : (fillers n s).u = s.u := (Kept.fillers n s).u
@[simp] theorem fillers_s (n : Nat) (s : State) : (fillers n s).s = s.s := (Kept.fillers n s).s
@[simp] theorem fillers_pc (n : Nat) (s : State) : (fillers n s).pc = s.pc := (Kept.fillers n s).pc
@[simp] theorem fillers_dp (n : Nat) (s : State) : (fillers n s).dp = s.dp := (Kept.fillers n s).dp
@[simp] theorem fillers_cc (n : Nat) (s : State) : (fillers n s).cc = s.cc := (Kept.fillers n s).cc
@[simp] theorem fillers_nmiArmed (n : Nat) (s : State) : (fillers n s).nmiArmed = s.nmiArmed := (Kept.fillers n s).nmiArmed
@[simp] theorem fillers_phase (n : Nat) (s : State) : (fillers n s).phase = s.phase := (Kept.fillers n s).phase
@[simp] theorem fillers_viaCwai (n : Nat) (s : State) : (fillers n s).viaCwai = s.viaCwai := (Kept.fillers n s).viaCwai
@[simp] theorem fillers_irqSel (n : Nat) (s : State) : (fillers n s).irqSel = s.irqSel := (Kept.fillers n s).irqSel
@[simp] theorem fillers_opcode (n : Nat) (s : State) : (fillers n s).opcode = s.opcode := (Kept.fillers n s).opcode
@[simp] theorem fillers_postbyte (n : Nat) (s : State) : (fillers n s).postbyte = s.postbyte := (Kept.fillers n s).postbyte
@[simp] theorem fillers_operand (n : Nat) (s : State) : (fillers n s).operand = s.operand := (Kept.fillers n s).operand
@[simp] theorem fillers_params (n : Nat) (s : State) : (fillers n s).params = s.params := (Kept.fillers n s).params

@[simp] theorem readWord_a (a : Word) (s : State) : (readWord a s).2.a = s.a := (Kept.readWord a s).a
@[simp] theorem readWord_b (a : Word) (s : State) : (readWord a s).2.b = s.b := (Kept.readWord a s).b
@[simp] theorem readWord_x (a : Word) (s : State) : (readWord a s).2.x = s.x := (Kept.readWord a s).x
@[simp] theorem readWord_y (a : Word) (s : State) : (readWord a s).2.y = s.y := (Kept.readWord a s).y
@[simp] theorem readWord_u (a : Word) (s : State) : (readWord a s).2.u = s.u := (Kept.readWord a s).u
@[simp] theorem readWord_s (a : Word) (s : State) : (readWord a s).2.s = s.s := (Kept.readWord a s).s
@[simp] theorem readWord_pc (a : Word) (s : State) : (readWord a s).2.pc = s.pc := (Kept.readWord a s).pc
@[simp] theorem readWord_dp (a : Word) (s : State) : (readWord a s).2.dp = s.dp := (Kept.readWord a s).dp
@[simp] theorem readWord_cc (a : Word) (s : State) : (readWord a s).2.cc = s.cc := (Kept.readWord a s).cc
@[simp] theorem readWord_nmiArmed (a : Word) (s : State) : (readWord a s).2.nmiArmed = s.nmiArmed := (Kept.readWord a s).nmiArmed
@[simp] theorem readWord_phase (a : Word) (s : State) : (readWord a s).2.phase = s.phase := (Kept.readWord a s).phase
@[simp] theorem readWord_viaCwai (a : Word) (s : State) : (readWord a s).2.viaCwai = s.viaCwai := (Kept.readWord a s).viaCwai
@[simp] theorem readWord_irqSel (a : Word) (s : State) : (readWord a s).2.irqSel = s.irqSel := (Kept.readWord a s).irqSel
@[simp] theorem readWord_opcode (a : Word) (s : State) : (readWord a s).2.opcode = s.opcode := (Kept.readWord a s).opcode
@[simp] theorem readWord_postbyte (a : Word) (s : State) : (readWord a s).2.postbyte = s.postbyte := (Kept.readWord a s).postbyte
@[simp] theorem readWord_operand (a : Word) (s : State) : (readWord a s).2.operand = s.operand := (Kept.readWord a s).operand
@[simp] theorem readWord_params (a : Word) (s : State) : (readWord a s).2.params = s.params := (Kept.readWord a s).params

@[simp] theorem writeWord_a (a v : Word) (s : State) : (writeWord a v s).a = s.a := (Kept.writeWord a v s).a
@[simp] theorem writeWord_b (a v : Word) (s : State) : (writeWord a v s).b = s.b := (Kept.writeWord a v s).b
@[simp] theorem writeWord_x (a v : Word) (s : State) : (writeWord a v s).x = s.x := (Kept.writeWord a v s).x
@[simp] theorem writeWord_y (a v : Word) (s : State) : (writeWord a v s).y = s.y := (Kept.writeWord a v s).y
@[simp] theorem writeWord_u (a v : Word) (s : State) : (writeWord a v s).u = s.u := (Kept.writeWord a v s).u
@[simp] theorem writeWord_s (a v : Word) (s : State) : (writeWord a v s).s = s.s := (Kept.writeWord a v s).s
@[simp] theorem writeWord_pc (a v : Word) (s : State) : (writeWord a v s).pc = s.pc := (Kept.writeWord a v s).pc
@[simp] theorem writeWord_dp (a v : Word) (s : State) : (writeWord a v s).dp = s.dp := (Kept.writeWord a v s).dp
@[simp] theorem writeWord_cc (a v : Word) (s : State) : (writeWord a v s).cc = s.cc := (Kept.writeWord a v s).cc
@[simp] theorem writeWord_nmiArmed (a v : Word) (s : State) : (writeWord a v s).nmiArmed = s.nmiArmed := (Kept.writeWord a v s).nmiArmed
@[simp] theorem writeWord_phase (a v : Word) (s : State) : (writeWord a v s).phase = s.phase := (Kept.writeWord a v s).phase
@[simp] theorem writeWord_viaCwai (a v : Word) (s : State) : (writeWord a v s).viaCwai = s.viaCwai := (Kept.writeWord a v s).viaCwai
@[simp] theorem writeWord_irqSel (a v : Word) (s : State) : (writeWord a v s).irqSel = s.irqSel := (Kept.writeWord a v s).irqSel
@[simp] theorem writeWord_opcode (a v : Word) (s : State) : (writeWord a v s).opcode = s.opcode := (Kept.writeWord a v s).opcode
@[simp] theorem writeWord_postbyte (a v : Word) (s : State) : (writeWord a v s).postbyte = s.postbyte := (Kept.writeWord a v s).postbyte
@[simp] theorem writeWord_operand (a v : Word) (s : State) : (writeWord a v s).operand = s.operand := (Kept.writeWord a v s).operand
@[simp] theorem writeWord_params (a v : Word) (s : State) : (writeWord a v s).params = s.params := (Kept.writeWord a v s).params

end Sys2Proof.Machine
end

