-- ==== Sys2Proof/Laws/Fields.lean ====
section
/-! SUPPORT. What making an address, reading an operand, pushing and pulling leave in each register, whatever the host
does. -/

namespace Sys2Proof.Machine

@[simp] theorem indexedForm_a (x : Indexed) (s : State) : (indexedForm x s).2.a = s.a := by
  unfold indexedForm; split <;> simp
@[simp] theorem eaIndexed_a (x : Indexed) (s : State) : (eaIndexed x s).2.a = s.a := by
  unfold eaIndexed; cases x.indirect <;> simp [indirectEa]
@[simp] theorem ea_a (m : MemOp) (s : State) : (ea m s).2.a = s.a := by cases m <;> simp [ea]
@[simp] theorem operand8_a (o : Src8) (s : State) : (operand8 o s).2.a = s.a := by cases o <;> simp [operand8]
@[simp] theorem operand16_a (o : Src16) (s : State) : (operand16 o s).2.a = s.a := by
  cases o <;> simp [operand16]
@[simp] theorem indexedForm_b (x : Indexed) (s : State) : (indexedForm x s).2.b = s.b := by
  unfold indexedForm; split <;> simp
@[simp] theorem eaIndexed_b (x : Indexed) (s : State) : (eaIndexed x s).2.b = s.b := by
  unfold eaIndexed; cases x.indirect <;> simp [indirectEa]
@[simp] theorem ea_b (m : MemOp) (s : State) : (ea m s).2.b = s.b := by cases m <;> simp [ea]
@[simp] theorem operand8_b (o : Src8) (s : State) : (operand8 o s).2.b = s.b := by cases o <;> simp [operand8]
@[simp] theorem operand16_b (o : Src16) (s : State) : (operand16 o s).2.b = s.b := by
  cases o <;> simp [operand16]
@[simp] theorem indexedForm_pc (x : Indexed) (s : State) : (indexedForm x s).2.pc = s.pc := by
  unfold indexedForm; split <;> simp
@[simp] theorem eaIndexed_pc (x : Indexed) (s : State) : (eaIndexed x s).2.pc = s.pc := by
  unfold eaIndexed; cases x.indirect <;> simp [indirectEa]
@[simp] theorem ea_pc (m : MemOp) (s : State) : (ea m s).2.pc = s.pc := by cases m <;> simp [ea]
@[simp] theorem operand8_pc (o : Src8) (s : State) : (operand8 o s).2.pc = s.pc := by cases o <;> simp [operand8]
@[simp] theorem operand16_pc (o : Src16) (s : State) : (operand16 o s).2.pc = s.pc := by
  cases o <;> simp [operand16]
@[simp] theorem indexedForm_dp (x : Indexed) (s : State) : (indexedForm x s).2.dp = s.dp := by
  unfold indexedForm; split <;> simp
@[simp] theorem eaIndexed_dp (x : Indexed) (s : State) : (eaIndexed x s).2.dp = s.dp := by
  unfold eaIndexed; cases x.indirect <;> simp [indirectEa]
@[simp] theorem ea_dp (m : MemOp) (s : State) : (ea m s).2.dp = s.dp := by cases m <;> simp [ea]
@[simp] theorem operand8_dp (o : Src8) (s : State) : (operand8 o s).2.dp = s.dp := by cases o <;> simp [operand8]
@[simp] theorem operand16_dp (o : Src16) (s : State) : (operand16 o s).2.dp = s.dp := by
  cases o <;> simp [operand16]
@[simp] theorem indexedForm_cc (x : Indexed) (s : State) : (indexedForm x s).2.cc = s.cc := by
  unfold indexedForm; split <;> simp
@[simp] theorem eaIndexed_cc (x : Indexed) (s : State) : (eaIndexed x s).2.cc = s.cc := by
  unfold eaIndexed; cases x.indirect <;> simp [indirectEa]
@[simp] theorem ea_cc (m : MemOp) (s : State) : (ea m s).2.cc = s.cc := by cases m <;> simp [ea]
@[simp] theorem operand8_cc (o : Src8) (s : State) : (operand8 o s).2.cc = s.cc := by cases o <;> simp [operand8]
@[simp] theorem operand16_cc (o : Src16) (s : State) : (operand16 o s).2.cc = s.cc := by
  cases o <;> simp [operand16]
@[simp] theorem indexedForm_nmiArmed (x : Indexed) (s : State) : (indexedForm x s).2.nmiArmed = s.nmiArmed := by
  unfold indexedForm; split <;> simp
@[simp] theorem eaIndexed_nmiArmed (x : Indexed) (s : State) : (eaIndexed x s).2.nmiArmed = s.nmiArmed := by
  unfold eaIndexed; cases x.indirect <;> simp [indirectEa]
@[simp] theorem ea_nmiArmed (m : MemOp) (s : State) : (ea m s).2.nmiArmed = s.nmiArmed := by cases m <;> simp [ea]
@[simp] theorem operand8_nmiArmed (o : Src8) (s : State) : (operand8 o s).2.nmiArmed = s.nmiArmed := by cases o <;> simp [operand8]
@[simp] theorem operand16_nmiArmed (o : Src16) (s : State) : (operand16 o s).2.nmiArmed = s.nmiArmed := by
  cases o <;> simp [operand16]
@[simp] theorem indexedForm_phase (x : Indexed) (s : State) : (indexedForm x s).2.phase = s.phase := by
  unfold indexedForm; split <;> simp
@[simp] theorem eaIndexed_phase (x : Indexed) (s : State) : (eaIndexed x s).2.phase = s.phase := by
  unfold eaIndexed; cases x.indirect <;> simp [indirectEa]
@[simp] theorem ea_phase (m : MemOp) (s : State) : (ea m s).2.phase = s.phase := by cases m <;> simp [ea]
@[simp] theorem operand8_phase (o : Src8) (s : State) : (operand8 o s).2.phase = s.phase := by cases o <;> simp [operand8]
@[simp] theorem operand16_phase (o : Src16) (s : State) : (operand16 o s).2.phase = s.phase := by
  cases o <;> simp [operand16]
@[simp] theorem indexedForm_viaCwai (x : Indexed) (s : State) : (indexedForm x s).2.viaCwai = s.viaCwai := by
  unfold indexedForm; split <;> simp
@[simp] theorem eaIndexed_viaCwai (x : Indexed) (s : State) : (eaIndexed x s).2.viaCwai = s.viaCwai := by
  unfold eaIndexed; cases x.indirect <;> simp [indirectEa]
@[simp] theorem ea_viaCwai (m : MemOp) (s : State) : (ea m s).2.viaCwai = s.viaCwai := by cases m <;> simp [ea]
@[simp] theorem operand8_viaCwai (o : Src8) (s : State) : (operand8 o s).2.viaCwai = s.viaCwai := by cases o <;> simp [operand8]
@[simp] theorem operand16_viaCwai (o : Src16) (s : State) : (operand16 o s).2.viaCwai = s.viaCwai := by
  cases o <;> simp [operand16]
@[simp] theorem indexedForm_irqSel (x : Indexed) (s : State) : (indexedForm x s).2.irqSel = s.irqSel := by
  unfold indexedForm; split <;> simp
@[simp] theorem eaIndexed_irqSel (x : Indexed) (s : State) : (eaIndexed x s).2.irqSel = s.irqSel := by
  unfold eaIndexed; cases x.indirect <;> simp [indirectEa]
@[simp] theorem ea_irqSel (m : MemOp) (s : State) : (ea m s).2.irqSel = s.irqSel := by cases m <;> simp [ea]
@[simp] theorem operand8_irqSel (o : Src8) (s : State) : (operand8 o s).2.irqSel = s.irqSel := by cases o <;> simp [operand8]
@[simp] theorem operand16_irqSel (o : Src16) (s : State) : (operand16 o s).2.irqSel = s.irqSel := by
  cases o <;> simp [operand16]
@[simp] theorem indexedForm_opcode (x : Indexed) (s : State) : (indexedForm x s).2.opcode = s.opcode := by
  unfold indexedForm; split <;> simp
@[simp] theorem eaIndexed_opcode (x : Indexed) (s : State) : (eaIndexed x s).2.opcode = s.opcode := by
  unfold eaIndexed; cases x.indirect <;> simp [indirectEa]
@[simp] theorem ea_opcode (m : MemOp) (s : State) : (ea m s).2.opcode = s.opcode := by cases m <;> simp [ea]
@[simp] theorem operand8_opcode (o : Src8) (s : State) : (operand8 o s).2.opcode = s.opcode := by cases o <;> simp [operand8]
@[simp] theorem operand16_opcode (o : Src16) (s : State) : (operand16 o s).2.opcode = s.opcode := by
  cases o <;> simp [operand16]
@[simp] theorem indexedForm_postbyte (x : Indexed) (s : State) : (indexedForm x s).2.postbyte = s.postbyte := by
  unfold indexedForm; split <;> simp
@[simp] theorem eaIndexed_postbyte (x : Indexed) (s : State) : (eaIndexed x s).2.postbyte = s.postbyte := by
  unfold eaIndexed; cases x.indirect <;> simp [indirectEa]
@[simp] theorem ea_postbyte (m : MemOp) (s : State) : (ea m s).2.postbyte = s.postbyte := by cases m <;> simp [ea]
@[simp] theorem operand8_postbyte (o : Src8) (s : State) : (operand8 o s).2.postbyte = s.postbyte := by cases o <;> simp [operand8]
@[simp] theorem operand16_postbyte (o : Src16) (s : State) : (operand16 o s).2.postbyte = s.postbyte := by
  cases o <;> simp [operand16]
@[simp] theorem indexedForm_operand (x : Indexed) (s : State) : (indexedForm x s).2.operand = s.operand := by
  unfold indexedForm; split <;> simp
@[simp] theorem eaIndexed_operand (x : Indexed) (s : State) : (eaIndexed x s).2.operand = s.operand := by
  unfold eaIndexed; cases x.indirect <;> simp [indirectEa]
@[simp] theorem ea_operand (m : MemOp) (s : State) : (ea m s).2.operand = s.operand := by cases m <;> simp [ea]
@[simp] theorem operand8_operand (o : Src8) (s : State) : (operand8 o s).2.operand = s.operand := by cases o <;> simp [operand8]
@[simp] theorem operand16_operand (o : Src16) (s : State) : (operand16 o s).2.operand = s.operand := by
  cases o <;> simp [operand16]
@[simp] theorem indexedForm_params (x : Indexed) (s : State) : (indexedForm x s).2.params = s.params := by
  unfold indexedForm; split <;> simp
@[simp] theorem eaIndexed_params (x : Indexed) (s : State) : (eaIndexed x s).2.params = s.params := by
  unfold eaIndexed; cases x.indirect <;> simp [indirectEa]
@[simp] theorem ea_params (m : MemOp) (s : State) : (ea m s).2.params = s.params := by cases m <;> simp [ea]
@[simp] theorem operand8_params (o : Src8) (s : State) : (operand8 o s).2.params = s.params := by cases o <;> simp [operand8]
@[simp] theorem operand16_params (o : Src16) (s : State) : (operand16 o s).2.params = s.params := by
  cases o <;> simp [operand16]

/-! ### Stacks -/

@[simp] theorem push8_a (st : Stack) (v : Byte) (s : State) : (push8 st v s).a = s.a := by simp [push8]
@[simp] theorem push16_a (st : Stack) (v : Word) (s : State) : (push16 st v s).a = s.a := by simp [push16]
@[simp] theorem push8If_a (c : Bool) (st : Stack) (g : State → Byte) (s : State) : (push8If c st g s).a = s.a := by
  cases c <;> simp [push8If]
@[simp] theorem push16If_a (c : Bool) (st : Stack) (g : State → Word) (s : State) :
    (push16If c st g s).a = s.a := by cases c <;> simp [push16If]
@[simp] theorem pushList_a (st : Stack) (p : Byte) (s : State) : (pushList st p s).a = s.a := by simp [pushList]
@[simp] theorem pull8_a (st : Stack) (s : State) : (pull8 st s).2.a = s.a := by simp [pull8]
@[simp] theorem pull16_a (st : Stack) (s : State) : (pull16 st s).2.a = s.a := by simp [pull16]
@[simp] theorem push8_b (st : Stack) (v : Byte) (s : State) : (push8 st v s).b = s.b := by simp [push8]
@[simp] theorem push16_b (st : Stack) (v : Word) (s : State) : (push16 st v s).b = s.b := by simp [push16]
@[simp] theorem push8If_b (c : Bool) (st : Stack) (g : State → Byte) (s : State) : (push8If c st g s).b = s.b := by
  cases c <;> simp [push8If]
@[simp] theorem push16If_b (c : Bool) (st : Stack) (g : State → Word) (s : State) :
    (push16If c st g s).b = s.b := by cases c <;> simp [push16If]
@[simp] theorem pushList_b (st : Stack) (p : Byte) (s : State) : (pushList st p s).b = s.b := by simp [pushList]
@[simp] theorem pull8_b (st : Stack) (s : State) : (pull8 st s).2.b = s.b := by simp [pull8]
@[simp] theorem pull16_b (st : Stack) (s : State) : (pull16 st s).2.b = s.b := by simp [pull16]
@[simp] theorem push8_x (st : Stack) (v : Byte) (s : State) : (push8 st v s).x = s.x := by simp [push8]
@[simp] theorem push16_x (st : Stack) (v : Word) (s : State) : (push16 st v s).x = s.x := by simp [push16]
@[simp] theorem push8If_x (c : Bool) (st : Stack) (g : State → Byte) (s : State) : (push8If c st g s).x = s.x := by
  cases c <;> simp [push8If]
@[simp] theorem push16If_x (c : Bool) (st : Stack) (g : State → Word) (s : State) :
    (push16If c st g s).x = s.x := by cases c <;> simp [push16If]
@[simp] theorem pushList_x (st : Stack) (p : Byte) (s : State) : (pushList st p s).x = s.x := by simp [pushList]
@[simp] theorem pull8_x (st : Stack) (s : State) : (pull8 st s).2.x = s.x := by simp [pull8]
@[simp] theorem pull16_x (st : Stack) (s : State) : (pull16 st s).2.x = s.x := by simp [pull16]
@[simp] theorem push8_y (st : Stack) (v : Byte) (s : State) : (push8 st v s).y = s.y := by simp [push8]
@[simp] theorem push16_y (st : Stack) (v : Word) (s : State) : (push16 st v s).y = s.y := by simp [push16]
@[simp] theorem push8If_y (c : Bool) (st : Stack) (g : State → Byte) (s : State) : (push8If c st g s).y = s.y := by
  cases c <;> simp [push8If]
@[simp] theorem push16If_y (c : Bool) (st : Stack) (g : State → Word) (s : State) :
    (push16If c st g s).y = s.y := by cases c <;> simp [push16If]
@[simp] theorem pushList_y (st : Stack) (p : Byte) (s : State) : (pushList st p s).y = s.y := by simp [pushList]
@[simp] theorem pull8_y (st : Stack) (s : State) : (pull8 st s).2.y = s.y := by simp [pull8]
@[simp] theorem pull16_y (st : Stack) (s : State) : (pull16 st s).2.y = s.y := by simp [pull16]
@[simp] theorem push8_pc (st : Stack) (v : Byte) (s : State) : (push8 st v s).pc = s.pc := by simp [push8]
@[simp] theorem push16_pc (st : Stack) (v : Word) (s : State) : (push16 st v s).pc = s.pc := by simp [push16]
@[simp] theorem push8If_pc (c : Bool) (st : Stack) (g : State → Byte) (s : State) : (push8If c st g s).pc = s.pc := by
  cases c <;> simp [push8If]
@[simp] theorem push16If_pc (c : Bool) (st : Stack) (g : State → Word) (s : State) :
    (push16If c st g s).pc = s.pc := by cases c <;> simp [push16If]
@[simp] theorem pushList_pc (st : Stack) (p : Byte) (s : State) : (pushList st p s).pc = s.pc := by simp [pushList]
@[simp] theorem pull8_pc (st : Stack) (s : State) : (pull8 st s).2.pc = s.pc := by simp [pull8]
@[simp] theorem pull16_pc (st : Stack) (s : State) : (pull16 st s).2.pc = s.pc := by simp [pull16]
@[simp] theorem push8_dp (st : Stack) (v : Byte) (s : State) : (push8 st v s).dp = s.dp := by simp [push8]
@[simp] theorem push16_dp (st : Stack) (v : Word) (s : State) : (push16 st v s).dp = s.dp := by simp [push16]
@[simp] theorem push8If_dp (c : Bool) (st : Stack) (g : State → Byte) (s : State) : (push8If c st g s).dp = s.dp := by
  cases c <;> simp [push8If]
@[simp] theorem push16If_dp (c : Bool) (st : Stack) (g : State → Word) (s : State) :
    (push16If c st g s).dp = s.dp := by cases c <;> simp [push16If]
@[simp] theorem pushList_dp (st : Stack) (p : Byte) (s : State) : (pushList st p s).dp = s.dp := by simp [pushList]
@[simp] theorem pull8_dp (st : Stack) (s : State) : (pull8 st s).2.dp = s.dp := by simp [pull8]
@[simp] theorem pull16_dp (st : Stack) (s : State) : (pull16 st s).2.dp = s.dp := by simp [pull16]
@[simp] theorem push8_cc (st : Stack) (v : Byte) (s : State) : (push8 st v s).cc = s.cc := by simp [push8]
@[simp] theorem push16_cc (st : Stack) (v : Word) (s : State) : (push16 st v s).cc = s.cc := by simp [push16]
@[simp] theorem push8If_cc (c : Bool) (st : Stack) (g : State → Byte) (s : State) : (push8If c st g s).cc = s.cc := by
  cases c <;> simp [push8If]
@[simp] theorem push16If_cc (c : Bool) (st : Stack) (g : State → Word) (s : State) :
    (push16If c st g s).cc = s.cc := by cases c <;> simp [push16If]
@[simp] theorem pushList_cc (st : Stack) (p : Byte) (s : State) : (pushList st p s).cc = s.cc := by simp [pushList]
@[simp] theorem pull8_cc (st : Stack) (s : State) : (pull8 st s).2.cc = s.cc := by simp [pull8]
@[simp] theorem pull16_cc (st : Stack) (s : State) : (pull16 st s).2.cc = s.cc := by simp [pull16]
@[simp] theorem push8_nmiArmed (st : Stack) (v : Byte) (s : State) : (push8 st v s).nmiArmed = s.nmiArmed := by simp [push8]
@[simp] theorem push16_nmiArmed (st : Stack) (v : Word) (s : State) : (push16 st v s).nmiArmed = s.nmiArmed := by simp [push16]
@[simp] theorem push8If_nmiArmed (c : Bool) (st : Stack) (g : State → Byte) (s : State) : (push8If c st g s).nmiArmed = s.nmiArmed := by
  cases c <;> simp [push8If]
@[simp] theorem push16If_nmiArmed (c : Bool) (st : Stack) (g : State → Word) (s : State) :
    (push16If c st g s).nmiArmed = s.nmiArmed := by cases c <;> simp [push16If]
@[simp] theorem pushList_nmiArmed (st : Stack) (p : Byte) (s : State) : (pushList st p s).nmiArmed = s.nmiArmed := by simp [pushList]
@[simp] theorem pull8_nmiArmed (st : Stack) (s : State) : (pull8 st s).2.nmiArmed = s.nmiArmed := by simp [pull8]
@[simp] theorem pull16_nmiArmed (st : Stack) (s : State) : (pull16 st s).2.nmiArmed = s.nmiArmed := by simp [pull16]
@[simp] theorem push8_phase (st : Stack) (v : Byte) (s : State) : (push8 st v s).phase = s.phase := by simp [push8]
@[simp] theorem push16_phase (st : Stack) (v : Word) (s : State) : (push16 st v s).phase = s.phase := by simp [push16]
@[simp] theorem push8If_phase (c : Bool) (st : Stack) (g : State → Byte) (s : State) : (push8If c st g s).phase = s.phase := by
  cases c <;> simp [push8If]
@[simp] theorem push16If_phase (c : Bool) (st : Stack) (g : State → Word) (s : State) :
    (push16If c st g s).phase = s.phase := by cases c <;> simp [push16If]
@[simp] theorem pushList_phase (st : Stack) (p : Byte) (s : State) : (pushList st p s).phase = s.phase := by simp [pushList]
@[simp] theorem pull8_phase (st : Stack) (s : State) : (pull8 st s).2.phase = s.phase := by simp [pull8]
@[simp] theorem pull16_phase (st : Stack) (s : State) : (pull16 st s).2.phase = s.phase := by simp [pull16]
@[simp] theorem push8_viaCwai (st : Stack) (v : Byte) (s : State) : (push8 st v s).viaCwai = s.viaCwai := by simp [push8]
@[simp] theorem push16_viaCwai (st : Stack) (v : Word) (s : State) : (push16 st v s).viaCwai = s.viaCwai := by simp [push16]
@[simp] theorem push8If_viaCwai (c : Bool) (st : Stack) (g : State → Byte) (s : State) : (push8If c st g s).viaCwai = s.viaCwai := by
  cases c <;> simp [push8If]
@[simp] theorem push16If_viaCwai (c : Bool) (st : Stack) (g : State → Word) (s : State) :
    (push16If c st g s).viaCwai = s.viaCwai := by cases c <;> simp [push16If]
@[simp] theorem pushList_viaCwai (st : Stack) (p : Byte) (s : State) : (pushList st p s).viaCwai = s.viaCwai := by simp [pushList]
@[simp] theorem pull8_viaCwai (st : Stack) (s : State) : (pull8 st s).2.viaCwai = s.viaCwai := by simp [pull8]
@[simp] theorem pull16_viaCwai (st : Stack) (s : State) : (pull16 st s).2.viaCwai = s.viaCwai := by simp [pull16]
@[simp] theorem push8_irqSel (st : Stack) (v : Byte) (s : State) : (push8 st v s).irqSel = s.irqSel := by simp [push8]
@[simp] theorem push16_irqSel (st : Stack) (v : Word) (s : State) : (push16 st v s).irqSel = s.irqSel := by simp [push16]
@[simp] theorem push8If_irqSel (c : Bool) (st : Stack) (g : State → Byte) (s : State) : (push8If c st g s).irqSel = s.irqSel := by
  cases c <;> simp [push8If]
@[simp] theorem push16If_irqSel (c : Bool) (st : Stack) (g : State → Word) (s : State) :
    (push16If c st g s).irqSel = s.irqSel := by cases c <;> simp [push16If]
@[simp] theorem pushList_irqSel (st : Stack) (p : Byte) (s : State) : (pushList st p s).irqSel = s.irqSel := by simp [pushList]
@[simp] theorem pull8_irqSel (st : Stack) (s : State) : (pull8 st s).2.irqSel = s.irqSel := by simp [pull8]
@[simp] theorem pull16_irqSel (st : Stack) (s : State) : (pull16 st s).2.irqSel = s.irqSel := by simp [pull16]
@[simp] theorem push8_opcode (st : Stack) (v : Byte) (s : State) : (push8 st v s).opcode = s.opcode := by simp [push8]
@[simp] theorem push16_opcode (st : Stack) (v : Word) (s : State) : (push16 st v s).opcode = s.opcode := by simp [push16]
@[simp] theorem push8If_opcode (c : Bool) (st : Stack) (g : State → Byte) (s : State) : (push8If c st g s).opcode = s.opcode := by
  cases c <;> simp [push8If]
@[simp] theorem push16If_opcode (c : Bool) (st : Stack) (g : State → Word) (s : State) :
    (push16If c st g s).opcode = s.opcode := by cases c <;> simp [push16If]
@[simp] theorem pushList_opcode (st : Stack) (p : Byte) (s : State) : (pushList st p s).opcode = s.opcode := by simp [pushList]
@[simp] theorem pull8_opcode (st : Stack) (s : State) : (pull8 st s).2.opcode = s.opcode := by simp [pull8]
@[simp] theorem pull16_opcode (st : Stack) (s : State) : (pull16 st s).2.opcode = s.opcode := by simp [pull16]
@[simp] theorem push8_postbyte (st : Stack) (v : Byte) (s : State) : (push8 st v s).postbyte = s.postbyte := by simp [push8]
@[simp] theorem push16_postbyte (st : Stack) (v : Word) (s : State) : (push16 st v s).postbyte = s.postbyte := by simp [push16]
@[simp] theorem push8If_postbyte (c : Bool) (st : Stack) (g : State → Byte) (s : State) : (push8If c st g s).postbyte = s.postbyte := by
  cases c <;> simp [push8If]
@[simp] theorem push16If_postbyte (c : Bool) (st : Stack) (g : State → Word) (s : State) :
    (push16If c st g s).postbyte = s.postbyte := by cases c <;> simp [push16If]
@[simp] theorem pushList_postbyte (st : Stack) (p : Byte) (s : State) : (pushList st p s).postbyte = s.postbyte := by simp [pushList]
@[simp] theorem pull8_postbyte (st : Stack) (s : State) : (pull8 st s).2.postbyte = s.postbyte := by simp [pull8]
@[simp] theorem pull16_postbyte (st : Stack) (s : State) : (pull16 st s).2.postbyte = s.postbyte := by simp [pull16]
@[simp] theorem push8_operand (st : Stack) (v : Byte) (s : State) : (push8 st v s).operand = s.operand := by simp [push8]
@[simp] theorem push16_operand (st : Stack) (v : Word) (s : State) : (push16 st v s).operand = s.operand := by simp [push16]
@[simp] theorem push8If_operand (c : Bool) (st : Stack) (g : State → Byte) (s : State) : (push8If c st g s).operand = s.operand := by
  cases c <;> simp [push8If]
@[simp] theorem push16If_operand (c : Bool) (st : Stack) (g : State → Word) (s : State) :
    (push16If c st g s).operand = s.operand := by cases c <;> simp [push16If]
@[simp] theorem pushList_operand (st : Stack) (p : Byte) (s : State) : (pushList st p s).operand = s.operand := by simp [pushList]
@[simp] theorem pull8_operand (st : Stack) (s : State) : (pull8 st s).2.operand = s.operand := by simp [pull8]
@[simp] theorem pull16_operand (st : Stack) (s : State) : (pull16 st s).2.operand = s.operand := by simp [pull16]
@[simp] theorem push8_params (st : Stack) (v : Byte) (s : State) : (push8 st v s).params = s.params := by simp [push8]
@[simp] theorem push16_params (st : Stack) (v : Word) (s : State) : (push16 st v s).params = s.params := by simp [push16]
@[simp] theorem push8If_params (c : Bool) (st : Stack) (g : State → Byte) (s : State) : (push8If c st g s).params = s.params := by
  cases c <;> simp [push8If]
@[simp] theorem push16If_params (c : Bool) (st : Stack) (g : State → Word) (s : State) :
    (push16If c st g s).params = s.params := by cases c <;> simp [push16If]
@[simp] theorem pushList_params (st : Stack) (p : Byte) (s : State) : (pushList st p s).params = s.params := by simp [pushList]
@[simp] theorem pull8_params (st : Stack) (s : State) : (pull8 st s).2.params = s.params := by simp [pull8]
@[simp] theorem pull16_params (st : Stack) (s : State) : (pull16 st s).2.params = s.params := by simp [pull16]

theorem pull8If_keeps {α : Type} (g : State → α) (hg : ∀ st s, g (pull8 st s).2 = g s) (c : Bool) (st : Stack)
    {f : Byte → State → State} (hf : c = true → ∀ v u, g (f v u) = g u) (s : State) : g (pull8If c st f s) = g s := by
  cases c
  · rfl
  · exact (hf rfl _ _).trans (hg st s)

theorem pull16If_keeps {α : Type} (g : State → α) (hg : ∀ st s, g (pull8 st s).2 = g s) (c : Bool) (st : Stack)
    {f : Word → State → State} (hf : c = true → ∀ v u, g (f v u) = g u) (s : State) :
    g (pull16If c st f s) = g s := by
  cases c
  · rfl
  · exact (hf rfl _ _).trans ((hg st _).trans (hg st s))

/-- What a pull keeps: anything the read cycles and the registers of the list leave as it is. -/
theorem pullList_keeps {α : Type} (g : State → α) (hg : ∀ st s, g (pull8 st s).2 = g s) (st : Stack) (p : Byte)
    (s : State) (h0 : p.getLsbD 0 = true → ∀ (v : Byte) (u : State), g { u with cc := v } = g u)
    (h1 : p.getLsbD 1 = true → ∀ (v : Byte) (u : State), g { u with a := v } = g u)
    (h2 : p.getLsbD 2 = true → ∀ (v : Byte) (u : State), g { u with b := v } = g u)
    (h3 : p.getLsbD 3 = true → ∀ (v : Byte) (u : State), g { u with dp := v } = g u)
    (h4 : p.getLsbD 4 = true → ∀ (v : Word) (u : State), g { u with x := v } = g u)
    (h5 : p.getLsbD 5 = true → ∀ (v : Word) (u : State), g { u with y := v } = g u)
    (h6 : p.getLsbD 6 = true → ∀ (v : Word) (u : State), g (u.setOtherSp st v) = g u)
    (h7 : p.getLsbD 7 = true → ∀ (v : Word) (u : State), g { u with pc := v } = g u) : g (pullList st p s) = g s :=
  (pull16If_keeps g hg _ st h7 _).trans <| (pull16If_keeps g hg _ st h6 _).trans <|
    (pull16If_keeps g hg _ st h5 _).trans <| (pull16If_keeps g hg _ st h4 _).trans <|
    (pull8If_keeps g hg _ st h3 _).trans <| (pull8If_keeps g hg _ st h2 _).trans <|
    (pull8If_keeps g hg _ st h1 _).trans <| pull8If_keeps g hg _ st h0 _

@[simp] theorem pullList_phase (st : Stack) (p : Byte) (s : State) : (pullList st p s).phase = s.phase := by
  apply pullList_keeps State.phase <;> simp
@[simp] theorem pullList_viaCwai (st : Stack) (p : Byte) (s : State) : (pullList st p s).viaCwai = s.viaCwai := by
  apply pullList_keeps State.viaCwai <;> simp
@[simp] theorem pullList_irqSel (st : Stack) (p : Byte) (s : State) : (pullList st p s).irqSel = s.irqSel := by
  apply pullList_keeps State.irqSel <;> simp
@[simp] theorem pullList_opcode (st : Stack) (p : Byte) (s : State) : (pullList st p s).opcode = s.opcode := by
  apply pullList_keeps State.opcode <;> simp
@[simp] theorem pullList_postbyte (st : Stack) (p : Byte) (s : State) : (pullList st p s).postbyte = s.postbyte := by
  apply pullList_keeps State.postbyte <;> simp
@[simp] theorem pullList_operand (st : Stack) (p : Byte) (s : State) : (pullList st p s).operand = s.operand := by
  apply pullList_keeps State.operand <;> simp
@[simp] theorem pullList_params (st : Stack) (p : Byte) (s : State) : (pullList st p s).params = s.params := by
  apply pullList_keeps State.params <;> simp

/-- DP is pulled by bit 3 only. -/
theorem pullList_dp (st : Stack) (p : Byte) (s : State) (h : p.getLsbD 3 = false) : (pullList st p s).dp = s.dp := by
  apply pullList_keeps State.dp <;> simp [-BitVec.getLsbD_eq_getElem, h]

/-- CC is pulled by bit 0 only. -/
theorem pullList_cc (st : Stack) (p : Byte) (s : State) (h : p.getLsbD 0 = false) : (pullList st p s).cc = s.cc := by
  apply pullList_keeps State.cc <;> simp [-BitVec.getLsbD_eq_getElem, h]

/-- Pulling U from S does not arm NMI (R347). -/
theorem pullList_s_nmiArmed (p : Byte) (s : State) : (pullList .s p s).nmiArmed = s.nmiArmed := by
  apply pullList_keeps State.nmiArmed <;> simp

/-- Pulling S from U arms NMI (R349). -/
theorem pullList_u_nmiArmed (p : Byte) (s : State) :
    (pullList .u p s).nmiArmed = (s.nmiArmed || p.getLsbD 6) := by
  have hg : ∀ st (s : State), (pull8 st s).2.nmiArmed = s.nmiArmed := fun st s => by simp
  have h : ∀ u : State, (pull16If (p.getLsbD 6) .u (State.setOtherSp .u) u).nmiArmed =
      (u.nmiArmed || p.getLsbD 6) := by
    intro u
    cases p.getLsbD 6 <;> simp [pull16If]
  have e : pullList .u p s = pull16If (p.getLsbD 7) .u (fun v s => { s with pc := v })
      (pull16If (p.getLsbD 6) .u (State.setOtherSp .u) (pullList .u (p &&& 0x3F#8) s)) := by
    unfold pullList
    simp [-BitVec.getLsbD_eq_getElem, pull16If]
  have k : (pullList .u (p &&& 0x3F#8) s).nmiArmed = s.nmiArmed := by
    apply pullList_keeps State.nmiArmed <;> simp [-BitVec.getLsbD_eq_getElem]
  rw [e]
  refine (pull16If_keeps State.nmiArmed hg _ _ ?_ _).trans (by rw [h, k])
  exact fun _ _ _ => rfl

/-- A transfer to S arms NMI (R342, R505). -/
theorem tregWrite_nmiArmed (r : TReg) (v : Word) (s : State) :
    (tregWrite r v s).nmiArmed = (s.nmiArmed || decide (r = .s)) := by
  cases r <;> simp [tregWrite, State.setD, State.loadS]

theorem tregWrite_dp (r : TReg) (v : Word) (s : State) (h : r ≠ .dp) : (tregWrite r v s).dp = s.dp := by
  cases r <;> simp [tregWrite, State.setD, State.loadS] at *

theorem tregWrite_cc (r : TReg) (v : Word) (s : State) (h : r ≠ .cc) : (tregWrite r v s).cc = s.cc := by
  cases r <;> simp [tregWrite, State.setD, State.loadS] at *

@[simp] theorem enterVector_nmiArmed (v : Word) (m : Byte) (s : State) : (enterVector v m s).nmiArmed = s.nmiArmed := by
  simp [enterVector]
@[simp] theorem enterVector_dp (v : Word) (m : Byte) (s : State) : (enterVector v m s).dp = s.dp := by
  simp [enterVector]
@[simp] theorem enterVector_cc (v : Word) (m : Byte) (s : State) : (enterVector v m s).cc = s.cc ||| m := by
  simp [enterVector]
@[simp] theorem enterVector_params (v : Word) (m : Byte) (s : State) : (enterVector v m s).params = s.params := by
  simp [enterVector]

end Sys2Proof.Machine
end

