-- ==== Sys2Proof/Laws/PerInstr.lean ====
section
/-! SUPPORT. Said of every instruction, constructor by constructor: it takes one to four bytes from its opcode byte on
(R111; its page prefix, a step of its own, is one more). -/

namespace Sys2Proof.Laws

theorem encIndexed_length (x : Indexed) : 1 ≤ (encIndexed x).length ∧ (encIndexed x).length ≤ 3 := by
  obtain ⟨r, m, ind⟩ := x
  cases m <;> simp [encIndexed]

theorem encMem_length (d x e : Byte) (m : MemOp) : 1 ≤ (encMem d x e m).length ∧ (encMem d x e m).length ≤ 4 := by
  cases m with
  | direct off => simp [encMem]
  | extended a => simp [encMem]
  | indexed i => have := encIndexed_length i; simp only [encMem, List.length_cons]; omega

theorem encSrc8_length (i d x e : Byte) (o : Src8) :
    1 ≤ (encSrc8 i d x e o).length ∧ (encSrc8 i d x e o).length ≤ 4 := by
  cases o with
  | imm v => simp [encSrc8]
  | mem m => exact encMem_length d x e m

theorem encSrc16_length (i d x e : Byte) (o : Src16) :
    1 ≤ (encSrc16 i d x e o).length ∧ (encSrc16 i d x e o).length ≤ 4 := by
  cases o with
  | imm v => simp [encSrc16]
  | mem m => exact encMem_length d x e m

theorem indexed_length (op : Byte) (x : Indexed) :
    1 ≤ (op :: encIndexed x).length ∧ (op :: encIndexed x).length ≤ 4 := by
  have := encIndexed_length x
  simp only [List.length_cons]; omega

theorem small {n : Nat} (h : Nat.ble 1 n = true) (k : Nat.ble n 4 = true) : 1 ≤ n ∧ n ≤ 4 :=
  ⟨Nat.le_of_ble_eq_true h, Nat.le_of_ble_eq_true k⟩

/-- One to four bytes from the opcode byte on. -/
def Length.Statement (i : Instr) : Prop := 1 ≤ (encodeOp i).length ∧ (encodeOp i).length ≤ 4

theorem Length.neg (m : MemOp) : Length.Statement (.neg m) := encMem_length _ _ _ m
theorem Length.negDup (m : MemOp) : Length.Statement (.negDup m) := encMem_length _ _ _ m
theorem Length.negcom (m : MemOp) : Length.Statement (.negcom m) := encMem_length _ _ _ m
theorem Length.com (m : MemOp) : Length.Statement (.com m) := encMem_length _ _ _ m
theorem Length.lsr (m : MemOp) : Length.Statement (.lsr m) := encMem_length _ _ _ m
theorem Length.lsrDup (m : MemOp) : Length.Statement (.lsrDup m) := encMem_length _ _ _ m
theorem Length.ror (m : MemOp) : Length.Statement (.ror m) := encMem_length _ _ _ m
theorem Length.asr (m : MemOp) : Length.Statement (.asr m) := encMem_length _ _ _ m
theorem Length.asl (m : MemOp) : Length.Statement (.asl m) := encMem_length _ _ _ m
theorem Length.rol (m : MemOp) : Length.Statement (.rol m) := encMem_length _ _ _ m
theorem Length.dec (m : MemOp) : Length.Statement (.dec m) := encMem_length _ _ _ m
theorem Length.decDup (m : MemOp) : Length.Statement (.decDup m) := encMem_length _ _ _ m
theorem Length.inc (m : MemOp) : Length.Statement (.inc m) := encMem_length _ _ _ m
theorem Length.tst (m : MemOp) : Length.Statement (.tst m) := encMem_length _ _ _ m
theorem Length.clr (m : MemOp) : Length.Statement (.clr m) := encMem_length _ _ _ m
theorem Length.nega : Length.Statement .nega := small rfl rfl
theorem Length.negb : Length.Statement .negb := small rfl rfl
theorem Length.negaDup : Length.Statement .negaDup := small rfl rfl
theorem Length.negbDup : Length.Statement .negbDup := small rfl rfl
theorem Length.negcoma : Length.Statement .negcoma := small rfl rfl
theorem Length.negcomb : Length.Statement .negcomb := small rfl rfl
theorem Length.coma : Length.Statement .coma := small rfl rfl
theorem Length.comb : Length.Statement .comb := small rfl rfl
theorem Length.lsra : Length.Statement .lsra := small rfl rfl
theorem Length.lsrb : Length.Statement .lsrb := small rfl rfl
theorem Length.lsraDup : Length.Statement .lsraDup := small rfl rfl
theorem Length.lsrbDup : Length.Statement .lsrbDup := small rfl rfl
theorem Length.rora : Length.Statement .rora := small rfl rfl
theorem Length.rorb : Length.Statement .rorb := small rfl rfl
theorem Length.asra : Length.Statement .asra := small rfl rfl
theorem Length.asrb : Length.Statement .asrb := small rfl rfl
theorem Length.asla : Length.Statement .asla := small rfl rfl
theorem Length.aslb : Length.Statement .aslb := small rfl rfl
theorem Length.rola : Length.Statement .rola := small rfl rfl
theorem Length.rolb : Length.Statement .rolb := small rfl rfl
theorem Length.deca : Length.Statement .deca := small rfl rfl
theorem Length.decb : Length.Statement .decb := small rfl rfl
theorem Length.decaDup : Length.Statement .decaDup := small rfl rfl
theorem Length.decbDup : Length.Statement .decbDup := small rfl rfl
theorem Length.inca : Length.Statement .inca := small rfl rfl
theorem Length.incb : Length.Statement .incb := small rfl rfl
theorem Length.tsta : Length.Statement .tsta := small rfl rfl
theorem Length.tstb : Length.Statement .tstb := small rfl rfl
theorem Length.clra : Length.Statement .clra := small rfl rfl
theorem Length.clrb : Length.Statement .clrb := small rfl rfl
theorem Length.clraDup : Length.Statement .clraDup := small rfl rfl
theorem Length.clrbDup : Length.Statement .clrbDup := small rfl rfl
theorem Length.suba (o : Src8) : Length.Statement (.suba o) := encSrc8_length _ _ _ _ o
theorem Length.subb (o : Src8) : Length.Statement (.subb o) := encSrc8_length _ _ _ _ o
theorem Length.cmpa (o : Src8) : Length.Statement (.cmpa o) := encSrc8_length _ _ _ _ o
theorem Length.cmpb (o : Src8) : Length.Statement (.cmpb o) := encSrc8_length _ _ _ _ o
theorem Length.sbca (o : Src8) : Length.Statement (.sbca o) := encSrc8_length _ _ _ _ o
theorem Length.sbcb (o : Src8) : Length.Statement (.sbcb o) := encSrc8_length _ _ _ _ o
theorem Length.anda (o : Src8) : Length.Statement (.anda o) := encSrc8_length _ _ _ _ o
theorem Length.andb (o : Src8) : Length.Statement (.andb o) := encSrc8_length _ _ _ _ o
theorem Length.bita (o : Src8) : Length.Statement (.bita o) := encSrc8_length _ _ _ _ o
theorem Length.bitb (o : Src8) : Length.Statement (.bitb o) := encSrc8_length _ _ _ _ o
theorem Length.lda (o : Src8) : Length.Statement (.lda o) := encSrc8_length _ _ _ _ o
theorem Length.ldb (o : Src8) : Length.Statement (.ldb o) := encSrc8_length _ _ _ _ o
theorem Length.sta (m : MemOp) : Length.Statement (.sta m) := encMem_length _ _ _ m
theorem Length.stb (m : MemOp) : Length.Statement (.stb m) := encMem_length _ _ _ m
theorem Length.eora (o : Src8) : Length.Statement (.eora o) := encSrc8_length _ _ _ _ o
theorem Length.eorb (o : Src8) : Length.Statement (.eorb o) := encSrc8_length _ _ _ _ o
theorem Length.adca (o : Src8) : Length.Statement (.adca o) := encSrc8_length _ _ _ _ o
theorem Length.adcb (o : Src8) : Length.Statement (.adcb o) := encSrc8_length _ _ _ _ o
theorem Length.ora (o : Src8) : Length.Statement (.ora o) := encSrc8_length _ _ _ _ o
theorem Length.orb (o : Src8) : Length.Statement (.orb o) := encSrc8_length _ _ _ _ o
theorem Length.adda (o : Src8) : Length.Statement (.adda o) := encSrc8_length _ _ _ _ o
theorem Length.addb (o : Src8) : Length.Statement (.addb o) := encSrc8_length _ _ _ _ o
theorem Length.discard (op : DiscardOp) (v : Byte) : Length.Statement (.discard op v) :=
  by cases op <;> exact small rfl rfl
theorem Length.addd (o : Src16) : Length.Statement (.addd o) := encSrc16_length _ _ _ _ o
theorem Length.subd (o : Src16) : Length.Statement (.subd o) := encSrc16_length _ _ _ _ o
theorem Length.cmpd (o : Src16) : Length.Statement (.cmpd o) := encSrc16_length _ _ _ _ o
theorem Length.cmpx (o : Src16) : Length.Statement (.cmpx o) := encSrc16_length _ _ _ _ o
theorem Length.cmpy (o : Src16) : Length.Statement (.cmpy o) := encSrc16_length _ _ _ _ o
theorem Length.cmpu (o : Src16) : Length.Statement (.cmpu o) := encSrc16_length _ _ _ _ o
theorem Length.cmps (o : Src16) : Length.Statement (.cmps o) := encSrc16_length _ _ _ _ o
theorem Length.ldd (o : Src16) : Length.Statement (.ldd o) := encSrc16_length _ _ _ _ o
theorem Length.ldx (o : Src16) : Length.Statement (.ldx o) := encSrc16_length _ _ _ _ o
theorem Length.ldy (o : Src16) : Length.Statement (.ldy o) := encSrc16_length _ _ _ _ o
theorem Length.ldu (o : Src16) : Length.Statement (.ldu o) := encSrc16_length _ _ _ _ o
theorem Length.lds (o : Src16) : Length.Statement (.lds o) := encSrc16_length _ _ _ _ o
theorem Length.std (m : MemOp) : Length.Statement (.std m) := encMem_length _ _ _ m
theorem Length.stx (m : MemOp) : Length.Statement (.stx m) := encMem_length _ _ _ m
theorem Length.sty (m : MemOp) : Length.Statement (.sty m) := encMem_length _ _ _ m
theorem Length.stu (m : MemOp) : Length.Statement (.stu m) := encMem_length _ _ _ m
theorem Length.sts (m : MemOp) : Length.Statement (.sts m) := encMem_length _ _ _ m
theorem Length.stxImm : Length.Statement .stxImm := small rfl rfl
theorem Length.stuImm : Length.Statement .stuImm := small rfl rfl
theorem Length.leax (x : Indexed) : Length.Statement (.leax x) := indexed_length _ x
theorem Length.leay (x : Indexed) : Length.Statement (.leay x) := indexed_length _ x
theorem Length.leas (x : Indexed) : Length.Statement (.leas x) := indexed_length _ x
theorem Length.leau (x : Indexed) : Length.Statement (.leau x) := indexed_length _ x
theorem Length.abx : Length.Statement .abx := small rfl rfl
theorem Length.mul : Length.Statement .mul := small rfl rfl
theorem Length.sex : Length.Statement .sex := small rfl rfl
theorem Length.daa : Length.Statement .daa := small rfl rfl
theorem Length.tfr (r1 : TReg) (r2 : TReg) : Length.Statement (.tfr r1 r2) := small rfl rfl
theorem Length.exg (r1 : TReg) (r2 : TReg) : Length.Statement (.exg r1 r2) := small rfl rfl
theorem Length.pshs (p : Byte) : Length.Statement (.pshs p) := small rfl rfl
theorem Length.puls (p : Byte) : Length.Statement (.puls p) := small rfl rfl
theorem Length.pshu (p : Byte) : Length.Statement (.pshu p) := small rfl rfl
theorem Length.pulu (p : Byte) : Length.Statement (.pulu p) := small rfl rfl
theorem Length.andcc (v : Byte) : Length.Statement (.andcc v) := small rfl rfl
theorem Length.orcc (v : Byte) : Length.Statement (.orcc v) := small rfl rfl
theorem Length.nop : Length.Statement .nop := small rfl rfl
theorem Length.nopDup : Length.Statement .nopDup := small rfl rfl
theorem Length.ccshift : Length.Statement .ccshift := small rfl rfl
theorem Length.andccDup (v : Byte) : Length.Statement (.andccDup v) := small rfl rfl
theorem Length.bra (off : Byte) : Length.Statement (.bra off) := small rfl rfl
theorem Length.brn (off : Byte) : Length.Statement (.brn off) := small rfl rfl
theorem Length.bhi (off : Byte) : Length.Statement (.bhi off) := small rfl rfl
theorem Length.bls (off : Byte) : Length.Statement (.bls off) := small rfl rfl
theorem Length.bcc (off : Byte) : Length.Statement (.bcc off) := small rfl rfl
theorem Length.bcs (off : Byte) : Length.Statement (.bcs off) := small rfl rfl
theorem Length.bne (off : Byte) : Length.Statement (.bne off) := small rfl rfl
theorem Length.beq (off : Byte) : Length.Statement (.beq off) := small rfl rfl
theorem Length.bvc (off : Byte) : Length.Statement (.bvc off) := small rfl rfl
theorem Length.bvs (off : Byte) : Length.Statement (.bvs off) := small rfl rfl
theorem Length.bpl (off : Byte) : Length.Statement (.bpl off) := small rfl rfl
theorem Length.bmi (off : Byte) : Length.Statement (.bmi off) := small rfl rfl
theorem Length.bge (off : Byte) : Length.Statement (.bge off) := small rfl rfl
theorem Length.blt (off : Byte) : Length.Statement (.blt off) := small rfl rfl
theorem Length.bgt (off : Byte) : Length.Statement (.bgt off) := small rfl rfl
theorem Length.ble (off : Byte) : Length.Statement (.ble off) := small rfl rfl
theorem Length.lbra (off : Word) : Length.Statement (.lbra off) := small rfl rfl
theorem Length.lbsr (off : Word) : Length.Statement (.lbsr off) := small rfl rfl
theorem Length.lbrn (off : Word) : Length.Statement (.lbrn off) := small rfl rfl
theorem Length.lbhi (off : Word) : Length.Statement (.lbhi off) := small rfl rfl
theorem Length.lbls (off : Word) : Length.Statement (.lbls off) := small rfl rfl
theorem Length.lbcc (off : Word) : Length.Statement (.lbcc off) := small rfl rfl
theorem Length.lbcs (off : Word) : Length.Statement (.lbcs off) := small rfl rfl
theorem Length.lbne (off : Word) : Length.Statement (.lbne off) := small rfl rfl
theorem Length.lbeq (off : Word) : Length.Statement (.lbeq off) := small rfl rfl
theorem Length.lbvc (off : Word) : Length.Statement (.lbvc off) := small rfl rfl
theorem Length.lbvs (off : Word) : Length.Statement (.lbvs off) := small rfl rfl
theorem Length.lbpl (off : Word) : Length.Statement (.lbpl off) := small rfl rfl
theorem Length.lbmi (off : Word) : Length.Statement (.lbmi off) := small rfl rfl
theorem Length.lbge (off : Word) : Length.Statement (.lbge off) := small rfl rfl
theorem Length.lblt (off : Word) : Length.Statement (.lblt off) := small rfl rfl
theorem Length.lbgt (off : Word) : Length.Statement (.lbgt off) := small rfl rfl
theorem Length.lble (off : Word) : Length.Statement (.lble off) := small rfl rfl
theorem Length.bsr (off : Byte) : Length.Statement (.bsr off) := small rfl rfl
theorem Length.jmp (m : MemOp) : Length.Statement (.jmp m) := encMem_length _ _ _ m
theorem Length.jsr (m : MemOp) : Length.Statement (.jsr m) := encMem_length _ _ _ m
theorem Length.rts : Length.Statement .rts := small rfl rfl
theorem Length.swi : Length.Statement .swi := small rfl rfl
theorem Length.swi2 : Length.Statement .swi2 := small rfl rfl
theorem Length.swi3 : Length.Statement .swi3 := small rfl rfl
theorem Length.rti : Length.Statement .rti := small rfl rfl
theorem Length.cwai (v : Byte) : Length.Statement (.cwai v) := small rfl rfl
theorem Length.sync : Length.Statement .sync := small rfl rfl
theorem Length.resetIll : Length.Statement .resetIll := small rfl rfl
theorem Length.hcf (op : HcfOp) : Length.Statement (.hcf op) := by cases op <;> exact small rfl rfl
theorem Length.page2Undefined (b : Byte) : Length.Statement (.page2Undefined b) := small rfl rfl
theorem Length.page3Undefined (b : Byte) : Length.Statement (.page3Undefined b) := small rfl rfl
theorem Length.page2Prefix : Length.Statement .page2Prefix := small rfl rfl
theorem Length.page3Prefix : Length.Statement .page3Prefix := small rfl rfl

end Sys2Proof.Laws
end

