-- ==== Sys2Proof/Laws/Runs.lean ====
section
/-! SUPPORT. What an instruction's bus cycles and register updates keep, whatever the host does: memory's canonical
form, a consistent scheduler, an NMI requested only while armed, one tick for each bus cycle, and the parameters. -/

namespace Sys2Proof.Machine

/-- `q` is `p` after bus cycles and updates of the registers. -/
structure Runs (p q : State) : Prop where
  wf : p.mem.wf = true → q.mem.wf = true
  consistent : p.sched.consistent → q.sched.consistent
  nmiReq : (p.nmiRequest = true → p.nmiArmed = true) → q.nmiRequest = true → q.nmiArmed = true
  seen : ∃ os : List Obs, q.trace = os ++ p.trace ∧
    q.cycle = p.cycle + BitVec.ofNat 32 (os.filter Obs.isBus).length
  params : q.params = p.params
  viaCwai : q.viaCwai = p.viaCwai

theorem Kept.runs {s t : State} (h : Kept s t) : Runs s t :=
  ⟨h.wf, h.consistent, h.nmiReq, h.seen, h.params, h.viaCwai⟩

theorem Runs.refl (s : State) : Runs s s := (Kept.refl s).runs

theorem Runs.trans {s t u : State} (h : Runs s t) (k : Runs t u) : Runs s u := by
  obtain ⟨os, ht, hc⟩ := h.seen
  obtain ⟨ps, kt, kc⟩ := k.seen
  exact ⟨fun w => k.wf (h.wf w), fun c => k.consistent (h.consistent c), fun n => k.nmiReq (h.nmiReq n),
    ⟨ps ++ os, by simp [kt, ht], by simp [kc, hc, BitVec.ofNat_add]; ac_rfl⟩,
    k.params.trans h.params, k.viaCwai.trans h.viaCwai⟩

/-- An update of registers only: none of the fields `Runs` speaks of is touched but the NMI arming, which may be set. -/
theorem Runs.update {s t u : State} (h : Runs s t) (hm : u.mem = t.mem) (hs : u.sched = t.sched)
    (hr : u.nmiRequest = t.nmiRequest) (ha : t.nmiArmed = true → u.nmiArmed = true) (ht : u.trace = t.trace)
    (hc : u.cycle = t.cycle) (hp : u.params = t.params) (hv : u.viaCwai = t.viaCwai) : Runs s u :=
  h.trans ⟨by rw [hm]; exact id, by rw [hs]; exact id, by rw [hr]; exact fun k n => ha (k n),
    ⟨[], by simp [ht], by simp [hc]⟩, hp, hv⟩

theorem Runs.readCycle {s t : State} (h : Runs s t) (a : Word) : Runs s (readCycle a t).2 :=
  h.trans (Kept.readCycle a t).runs
theorem Runs.writeCycle {s t : State} (h : Runs s t) (a : Word) (v : Byte) : Runs s (writeCycle a v t) :=
  h.trans (Kept.writeCycle a v t).runs
theorem Runs.dummy {s t : State} (h : Runs s t) (a : Word) : Runs s (dummy a t) := h.trans (Kept.dummy a t).runs
theorem Runs.filler {s t : State} (h : Runs s t) : Runs s (filler t) := h.trans (Kept.filler t).runs
theorem Runs.fillers {s t : State} (h : Runs s t) (n : Nat) : Runs s (fillers n t) :=
  h.trans (Kept.fillers n t).runs
theorem Runs.readWord {s t : State} (h : Runs s t) (a : Word) : Runs s (readWord a t).2 :=
  h.trans (Kept.readWord a t).runs
theorem Runs.writeWord {s t : State} (h : Runs s t) (a v : Word) : Runs s (writeWord a v t) :=
  h.trans (Kept.writeWord a v t).runs

theorem Runs.setIdx {s t : State} (h : Runs s t) (r : IdxReg) (v : Word) : Runs s (t.setIdx r v) := by
  apply h.update <;> simp
theorem Runs.setSp {s t : State} (h : Runs s t) (st : Stack) (v : Word) : Runs s (t.setSp st v) := by
  apply h.update <;> simp
theorem Runs.setOtherSp {s t : State} (h : Runs s t) (st : Stack) (v : Word) : Runs s (t.setOtherSp st v) := by
  apply h.update <;> cases st <;> simp [State.setOtherSp, State.loadS]

/-! ### Operands -/

theorem Runs.indexedForm {s t : State} (h : Runs s t) (x : Indexed) : Runs s (indexedForm x t).2 := by
  unfold Machine.indexedForm
  split <;> first | exact h | exact h.filler | exact h.fillers _ | exact (h.fillers _).setIdx _ _

theorem Runs.eaIndexed {s t : State} (h : Runs s t) (x : Indexed) : Runs s (eaIndexed x t).2 := by
  unfold Machine.eaIndexed
  cases x.indirect
  · exact (h.indexedForm x).filler
  · exact ((h.indexedForm x).readWord _).filler.filler

theorem Runs.ea {s t : State} (h : Runs s t) (m : MemOp) : Runs s (ea m t).2 := by
  cases m
  · exact h.filler
  · exact h.eaIndexed _
  · exact h.filler

theorem Runs.operand8 {s t : State} (h : Runs s t) (o : Src8) : Runs s (operand8 o t).2 := by
  cases o
  · exact h
  · exact (h.ea _).readCycle _

theorem Runs.operand16 {s t : State} (h : Runs s t) (o : Src16) : Runs s (operand16 o t).2 := by
  cases o
  · exact h
  · exact (h.ea _).readWord _

/-! ### Stacks -/

theorem Runs.push8 {s t : State} (h : Runs s t) (st : Stack) (v : Byte) : Runs s (push8 st v t) :=
  (h.setSp st _).writeCycle _ _
theorem Runs.push16 {s t : State} (h : Runs s t) (st : Stack) (v : Word) : Runs s (push16 st v t) :=
  (h.push8 st _).push8 st _
theorem Runs.pull8 {s t : State} (h : Runs s t) (st : Stack) : Runs s (pull8 st t).2 := (h.readCycle _).setSp st _
theorem Runs.pull16 {s t : State} (h : Runs s t) (st : Stack) : Runs s (pull16 st t).2 := (h.pull8 st).pull8 st

theorem Runs.push8If {s t : State} (h : Runs s t) (c : Bool) (st : Stack) (f : State → Byte) :
    Runs s (push8If c st f t) := by
  cases c
  · exact h
  · exact h.push8 st _
theorem Runs.push16If {s t : State} (h : Runs s t) (c : Bool) (st : Stack) (f : State → Word) :
    Runs s (push16If c st f t) := by
  cases c
  · exact h
  · exact h.push16 st _
theorem Runs.pull8If {s t : State} (h : Runs s t) (c : Bool) (st : Stack) (f : Byte → State → State)
    (hf : ∀ v u, Runs s u → Runs s (f v u)) : Runs s (pull8If c st f t) := by
  cases c
  · exact h
  · exact hf _ _ (h.pull8 st)
theorem Runs.pull16If {s t : State} (h : Runs s t) (c : Bool) (st : Stack) (f : Word → State → State)
    (hf : ∀ v u, Runs s u → Runs s (f v u)) : Runs s (pull16If c st f t) := by
  cases c
  · exact h
  · exact hf _ _ (h.pull16 st)

theorem Runs.pushList {s t : State} (h : Runs s t) (st : Stack) (p : Byte) : Runs s (pushList st p t) :=
  (((((((h.push16If _ st _).push16If _ st _).push16If _ st _).push16If _ st _).push8If _ st _).push8If _ st _).push8If
    _ st _).push8If _ st _

theorem Runs.pullList {s t : State} (h : Runs s t) (st : Stack) (p : Byte) : Runs s (pullList st p t) := by
  unfold Machine.pullList
  refine Runs.pull16If (Runs.pull16If (Runs.pull16If (Runs.pull16If (Runs.pull8If (Runs.pull8If (Runs.pull8If
    (Runs.pull8If h _ _ _ ?_) _ _ _ ?_) _ _ _ ?_) _ _ _ ?_) _ _ _ ?_) _ _ _ ?_) _ _ _ ?_) _ _ _ ?_ <;>
    intro v u hu <;> first | exact hu.setOtherSp _ _ | exact hu.update rfl rfl rfl id rfl rfl rfl rfl

theorem Runs.tregWrite {s t : State} (h : Runs s t) (r : TReg) (v : Word) : Runs s (tregWrite r v t) := by
  cases r <;> first | exact h.update rfl rfl rfl id rfl rfl rfl rfl | exact h.update rfl rfl rfl (fun _ => rfl) rfl rfl rfl rfl

/-! ### The fetch -/

theorem Runs.fetchByte {s t : State} (h : Runs s t) : Runs s (fetchByte t).2 :=
  (h.readCycle t.pc).update rfl rfl rfl id rfl rfl rfl rfl

theorem Runs.fetchOperands {s t : State} (h : Runs s t) (n : Nat) : Runs s (fetchOperands n t).2 := by
  induction n generalizing t with
  | zero => exact h
  | succ n ih => exact ih (h.fetchByte.update rfl rfl rfl id rfl rfl rfl rfl)

theorem Runs.fetchRest {s t : State} (h : Runs s t) (sh : Shape) : Runs s (fetchRest sh t).2 := by
  cases sh
  · exact h
  · exact h.fetchOperands 1
  · exact h.fetchOperands 2
  · exact h.fetchByte.update rfl rfl rfl id rfl rfl rfl rfl
  · refine Runs.fetchOperands ?_ _
    exact h.fetchByte.update rfl rfl rfl id rfl rfl rfl rfl

theorem Runs.fetchInstr {s t : State} (h : Runs s t) (pg : Page) : Runs s (fetchInstr pg t).2 := by
  refine Runs.fetchRest ?_ _
  exact h.fetchByte.update rfl rfl rfl id rfl rfl rfl rfl

/-! ### Instructions -/

/-- How an instruction ends: complete, complete through a vector, in a state of its own, or in CWAI's wait. -/
inductive Ends (s t : State) : Prop where
  | done (u : State) (h : Runs s u) (e : t = u.done)
  | entry (u : State) (h : Runs s u) (e : t = { u with viaCwai := false }.done)
  | goto (u : State) (h : Runs s u) (p : Phase) (hp : p ∈ [Phase.page2, .page3, .sync, .hcf]) (e : t = u.goto p)
  | wait (u : State) (h : Runs s u) (e : t = { u with viaCwai := true, phase := .dispatchIrq })

theorem Runs.complete {s u t : State} (h : Runs s u) (k : complete u = .next t) : Ends s t :=
  .done u h (complete_next k).1

theorem Runs.settleGoto {s u t : State} (h : Runs s u) {p : Phase} (hp : p ∈ [Phase.page2, .page3, .sync, .hcf])
    (k : settle (u.goto p) = .next t) : Ends s t := .goto u h p hp (settle_next k).1

theorem rmwMem_ends {op : Byte → Byte → Byte × Byte} {m : MemOp} {s t : State} (k : rmwMem op m s = .next t) :
    Ends s t := by
  refine Runs.complete (Runs.writeCycle (Runs.filler ?_) _ _) k
  exact (((Runs.refl s).ea m).readCycle _).update rfl rfl rfl id rfl rfl rfl rfl

theorem tstMem_ends {m : MemOp} {s t : State} (k : tstMem m s = .next t) : Ends s t := by
  refine Runs.complete (Runs.fillers ?_ _) k
  exact (((Runs.refl s).ea m).readCycle _).update rfl rfl rfl id rfl rfl rfl rfl

theorem inh_ends {f : State → State} {s t : State}
    (hf : ∀ u, Runs s u → Runs s (f u)) (k : complete (f (dummy s.pc s)) = .next t) : Ends s t :=
  Runs.complete (hf _ ((Runs.refl s).dummy _)) k

theorem inhA_ends {op : Byte → Byte → Byte × Byte} {s t : State} (k : inhA op s = .next t) : Ends s t :=
  inh_ends (f := fun u => { u with a := (op u.cc u.a).1, cc := (op u.cc u.a).2 })
    (fun _ h => h.update rfl rfl rfl id rfl rfl rfl rfl) k
theorem inhB_ends {op : Byte → Byte → Byte × Byte} {s t : State} (k : inhB op s = .next t) : Ends s t :=
  inh_ends (f := fun u => { u with b := (op u.cc u.b).1, cc := (op u.cc u.b).2 })
    (fun _ h => h.update rfl rfl rfl id rfl rfl rfl rfl) k
theorem tstA_ends {s t : State} (k : tstA s = .next t) : Ends s t :=
  inh_ends (f := fun u => { u with cc := (Flags.opTst u.cc u.a).2 })
    (fun _ h => h.update rfl rfl rfl id rfl rfl rfl rfl) k
theorem tstB_ends {s t : State} (k : tstB s = .next t) : Ends s t :=
  inh_ends (f := fun u => { u with cc := (Flags.opTst u.cc u.b).2 })
    (fun _ h => h.update rfl rfl rfl id rfl rfl rfl rfl) k

theorem accA_ends {op : Byte → Byte → Byte → Byte × Byte} {o : Src8} {s t : State} (k : accA op o s = .next t) :
    Ends s t := by
  refine Runs.complete ?_ k
  exact ((Runs.refl s).operand8 o).update rfl rfl rfl id rfl rfl rfl rfl
theorem accB_ends {op : Byte → Byte → Byte → Byte × Byte} {o : Src8} {s t : State} (k : accB op o s = .next t) :
    Ends s t := by
  refine Runs.complete ?_ k
  exact ((Runs.refl s).operand8 o).update rfl rfl rfl id rfl rfl rfl rfl
theorem testA_ends {op : Byte → Byte → Byte → Byte × Byte} {o : Src8} {s t : State} (k : testA op o s = .next t) :
    Ends s t := by
  refine Runs.complete ?_ k
  exact ((Runs.refl s).operand8 o).update rfl rfl rfl id rfl rfl rfl rfl
theorem testB_ends {op : Byte → Byte → Byte → Byte × Byte} {o : Src8} {s t : State} (k : testB op o s = .next t) :
    Ends s t := by
  refine Runs.complete ?_ k
  exact ((Runs.refl s).operand8 o).update rfl rfl rfl id rfl rfl rfl rfl
theorem store8_ends {f : State → Byte} {m : MemOp} {s t : State} (k : store8 f m s = .next t) : Ends s t := by
  refine Runs.complete (Runs.writeCycle ?_ _ _) k
  exact ((Runs.refl s).ea m).update rfl rfl rfl id rfl rfl rfl rfl

theorem arithD_ends {op : Byte → Word → Word → Word × Byte} {o : Src16} {s t : State} (k : arithD op o s = .next t) :
    Ends s t := by
  refine Runs.complete (Runs.filler ?_) k
  exact ((Runs.refl s).operand16 o).update rfl rfl rfl id rfl rfl rfl rfl
theorem compare16_ends {f : State → Word} {o : Src16} {s t : State} (k : compare16 f o s = .next t) : Ends s t := by
  refine Runs.complete (Runs.filler ?_) k
  exact ((Runs.refl s).operand16 o).update rfl rfl rfl id rfl rfl rfl rfl
theorem load16_ends {f : Word → State → State} {o : Src16} {s t : State} (hf : ∀ v u, Runs s u → Runs s (f v u))
    (k : load16 f o s = .next t) : Ends s t := by
  refine Runs.complete (hf _ _ ?_) k
  exact ((Runs.refl s).operand16 o).update rfl rfl rfl id rfl rfl rfl rfl
theorem store16_ends {f : State → Word} {m : MemOp} {s t : State} (k : store16 f m s = .next t) : Ends s t := by
  refine Runs.complete (Runs.writeWord ?_ _ _) k
  exact ((Runs.refl s).ea m).update rfl rfl rfl id rfl rfl rfl rfl
theorem storeImm_ends {f : State → Word} {s t : State} (k : storeImm f s = .next t) : Ends s t := by
  unfold storeImm at k
  split at k
  · exact (refuse_next k).elim
  · refine Runs.complete ?_ k
    refine Runs.update (Runs.writeCycle ?_ _ _) rfl rfl rfl id rfl rfl rfl rfl
    exact ((Runs.refl s).dummy _).update rfl rfl rfl id rfl rfl rfl rfl
theorem lea_ends {f : Word → State → State} {x : Indexed} {s t : State} (hf : ∀ v u, Runs s u → Runs s (f v u))
    (k : lea f x s = .next t) : Ends s t :=
  Runs.complete (hf _ _ ((Runs.refl s).eaIndexed x)).filler k

theorem shortBranch_ends {c : Cond} {off : Byte} {s t : State} (k : shortBranch c off s = .next t) : Ends s t := by
  refine Runs.complete ?_ k
  cases c.holds (filler s).cc
  · exact (Runs.refl s).filler
  · exact (Runs.refl s).filler.update rfl rfl rfl id rfl rfl rfl rfl
theorem longBranch_ends {c : Cond} {off : Word} {s t : State} (k : longBranch c off s = .next t) : Ends s t := by
  unfold longBranch at k
  dsimp only at k
  split at k
  · refine Runs.complete ?_ k
    exact (Runs.refl s).filler.filler.update rfl rfl rfl id rfl rfl rfl rfl
  · exact Runs.complete (Runs.refl s).filler k
theorem callTarget_ends {w : Word} {s u t : State} (h : Runs s u) (k : callTarget w u = .next t) : Ends s t := by
  refine Runs.complete ?_ k
  exact ((h.dummy _).filler.push16 .s _).update rfl rfl rfl id rfl rfl rfl rfl

theorem Runs.enterVector {s u : State} (h : Runs s u) {v : Word} (hv : v ≠ Config.vecNmi) (m : Byte) :
    ∃ w, Runs s w ∧ Machine.enterVector v m u = { w with viaCwai := false, phase := .labelA } := by
  refine ⟨_, ?_, rfl⟩
  refine Runs.filler (Runs.update (Runs.readWord (Runs.filler ?_) _) rfl rfl rfl id rfl rfl rfl rfl)
  refine h.trans ⟨id, id, ?_, ⟨[.interruptHook v], by simp, by simp [Obs.isBus]⟩, rfl, rfl⟩
  simp [hv]

theorem softwareInterrupt_ends {v : Word} (hv : v ≠ Config.vecNmi) {m : Byte} {s t : State}
    (k : softwareInterrupt v m s = .next t) : Ends s t := by
  have h : Runs s (stackEntire (Machine.filler (Machine.dummy s.pc s))) := by
    refine Runs.pushList ?_ _ _
    exact ((Runs.refl s).dummy _).filler.update rfl rfl rfl id rfl rfl rfl rfl
  obtain ⟨w, hw, e⟩ := h.enterVector hv m
  have k' := (complete_next k).1
  exact .entry w hw (by rw [k', e]; rfl)

theorem undefinedByte_ends {s t : State} (k : undefinedByte s = .next t) : Ends s t := by
  unfold undefinedByte at k
  split at k
  · exact (Runs.refl s).settleGoto (by simp) k
  · exact (refuse_next k).elim

theorem execNeg_ends {m : MemOp} {s t : State} (k : execNeg m s = .next t) : Ends s t := rmwMem_ends k
theorem execNegDup_ends {m : MemOp} {s t : State} (k : execNegDup m s = .next t) : Ends s t := rmwMem_ends k
theorem execNegcom_ends {m : MemOp} {s t : State} (k : execNegcom m s = .next t) : Ends s t := rmwMem_ends k
theorem execCom_ends {m : MemOp} {s t : State} (k : execCom m s = .next t) : Ends s t := rmwMem_ends k
theorem execLsr_ends {m : MemOp} {s t : State} (k : execLsr m s = .next t) : Ends s t := rmwMem_ends k
theorem execLsrDup_ends {m : MemOp} {s t : State} (k : execLsrDup m s = .next t) : Ends s t := rmwMem_ends k
theorem execRor_ends {m : MemOp} {s t : State} (k : execRor m s = .next t) : Ends s t := rmwMem_ends k
theorem execAsr_ends {m : MemOp} {s t : State} (k : execAsr m s = .next t) : Ends s t := rmwMem_ends k
theorem execAsl_ends {m : MemOp} {s t : State} (k : execAsl m s = .next t) : Ends s t := rmwMem_ends k
theorem execRol_ends {m : MemOp} {s t : State} (k : execRol m s = .next t) : Ends s t := rmwMem_ends k
theorem execDec_ends {m : MemOp} {s t : State} (k : execDec m s = .next t) : Ends s t := rmwMem_ends k
theorem execDecDup_ends {m : MemOp} {s t : State} (k : execDecDup m s = .next t) : Ends s t := rmwMem_ends k
theorem execInc_ends {m : MemOp} {s t : State} (k : execInc m s = .next t) : Ends s t := rmwMem_ends k
theorem execTst_ends {m : MemOp} {s t : State} (k : execTst m s = .next t) : Ends s t := tstMem_ends k
theorem execClr_ends {m : MemOp} {s t : State} (k : execClr m s = .next t) : Ends s t := rmwMem_ends k
theorem execNega_ends {s t : State} (k : execNega s = .next t) : Ends s t := inhA_ends k
theorem execNegb_ends {s t : State} (k : execNegb s = .next t) : Ends s t := inhB_ends k
theorem execNegaDup_ends {s t : State} (k : execNegaDup s = .next t) : Ends s t := inhA_ends k
theorem execNegbDup_ends {s t : State} (k : execNegbDup s = .next t) : Ends s t := inhB_ends k
theorem execNegcoma_ends {s t : State} (k : execNegcoma s = .next t) : Ends s t := inhA_ends k
theorem execNegcomb_ends {s t : State} (k : execNegcomb s = .next t) : Ends s t := inhB_ends k
theorem execComa_ends {s t : State} (k : execComa s = .next t) : Ends s t := inhA_ends k
theorem execComb_ends {s t : State} (k : execComb s = .next t) : Ends s t := inhB_ends k
theorem execLsra_ends {s t : State} (k : execLsra s = .next t) : Ends s t := inhA_ends k
theorem execLsrb_ends {s t : State} (k : execLsrb s = .next t) : Ends s t := inhB_ends k
theorem execLsraDup_ends {s t : State} (k : execLsraDup s = .next t) : Ends s t := inhA_ends k
theorem execLsrbDup_ends {s t : State} (k : execLsrbDup s = .next t) : Ends s t := inhB_ends k
theorem execRora_ends {s t : State} (k : execRora s = .next t) : Ends s t := inhA_ends k
theorem execRorb_ends {s t : State} (k : execRorb s = .next t) : Ends s t := inhB_ends k
theorem execAsra_ends {s t : State} (k : execAsra s = .next t) : Ends s t := inhA_ends k
theorem execAsrb_ends {s t : State} (k : execAsrb s = .next t) : Ends s t := inhB_ends k
theorem execAsla_ends {s t : State} (k : execAsla s = .next t) : Ends s t := inhA_ends k
theorem execAslb_ends {s t : State} (k : execAslb s = .next t) : Ends s t := inhB_ends k
theorem execRola_ends {s t : State} (k : execRola s = .next t) : Ends s t := inhA_ends k
theorem execRolb_ends {s t : State} (k : execRolb s = .next t) : Ends s t := inhB_ends k
theorem execDeca_ends {s t : State} (k : execDeca s = .next t) : Ends s t := inhA_ends k
theorem execDecb_ends {s t : State} (k : execDecb s = .next t) : Ends s t := inhB_ends k
theorem execDecaDup_ends {s t : State} (k : execDecaDup s = .next t) : Ends s t := inhA_ends k
theorem execDecbDup_ends {s t : State} (k : execDecbDup s = .next t) : Ends s t := inhB_ends k
theorem execInca_ends {s t : State} (k : execInca s = .next t) : Ends s t := inhA_ends k
theorem execIncb_ends {s t : State} (k : execIncb s = .next t) : Ends s t := inhB_ends k
theorem execTsta_ends {s t : State} (k : execTsta s = .next t) : Ends s t := tstA_ends k
theorem execTstb_ends {s t : State} (k : execTstb s = .next t) : Ends s t := tstB_ends k
theorem execClra_ends {s t : State} (k : execClra s = .next t) : Ends s t := inhA_ends k
theorem execClrb_ends {s t : State} (k : execClrb s = .next t) : Ends s t := inhB_ends k
theorem execClraDup_ends {s t : State} (k : execClraDup s = .next t) : Ends s t := inhA_ends k
theorem execClrbDup_ends {s t : State} (k : execClrbDup s = .next t) : Ends s t := inhB_ends k
theorem execSuba_ends {o : Src8} {s t : State} (k : execSuba o s = .next t) : Ends s t := accA_ends k
theorem execSubb_ends {o : Src8} {s t : State} (k : execSubb o s = .next t) : Ends s t := accB_ends k
theorem execCmpa_ends {o : Src8} {s t : State} (k : execCmpa o s = .next t) : Ends s t := testA_ends k
theorem execCmpb_ends {o : Src8} {s t : State} (k : execCmpb o s = .next t) : Ends s t := testB_ends k
theorem execSbca_ends {o : Src8} {s t : State} (k : execSbca o s = .next t) : Ends s t := accA_ends k
theorem execSbcb_ends {o : Src8} {s t : State} (k : execSbcb o s = .next t) : Ends s t := accB_ends k
theorem execAnda_ends {o : Src8} {s t : State} (k : execAnda o s = .next t) : Ends s t := accA_ends k
theorem execAndb_ends {o : Src8} {s t : State} (k : execAndb o s = .next t) : Ends s t := accB_ends k
theorem execBita_ends {o : Src8} {s t : State} (k : execBita o s = .next t) : Ends s t := testA_ends k
theorem execBitb_ends {o : Src8} {s t : State} (k : execBitb o s = .next t) : Ends s t := testB_ends k
theorem execLda_ends {o : Src8} {s t : State} (k : execLda o s = .next t) : Ends s t := accA_ends k
theorem execLdb_ends {o : Src8} {s t : State} (k : execLdb o s = .next t) : Ends s t := accB_ends k
theorem execSta_ends {m : MemOp} {s t : State} (k : execSta m s = .next t) : Ends s t := store8_ends k
theorem execStb_ends {m : MemOp} {s t : State} (k : execStb m s = .next t) : Ends s t := store8_ends k
theorem execEora_ends {o : Src8} {s t : State} (k : execEora o s = .next t) : Ends s t := accA_ends k
theorem execEorb_ends {o : Src8} {s t : State} (k : execEorb o s = .next t) : Ends s t := accB_ends k
theorem execAdca_ends {o : Src8} {s t : State} (k : execAdca o s = .next t) : Ends s t := accA_ends k
theorem execAdcb_ends {o : Src8} {s t : State} (k : execAdcb o s = .next t) : Ends s t := accB_ends k
theorem execOra_ends {o : Src8} {s t : State} (k : execOra o s = .next t) : Ends s t := accA_ends k
theorem execOrb_ends {o : Src8} {s t : State} (k : execOrb o s = .next t) : Ends s t := accB_ends k
theorem execAdda_ends {o : Src8} {s t : State} (k : execAdda o s = .next t) : Ends s t := accA_ends k
theorem execAddb_ends {o : Src8} {s t : State} (k : execAddb o s = .next t) : Ends s t := accB_ends k
theorem execDiscard_ends {op : DiscardOp} {v : Byte} {s t : State} (k : execDiscard op v s = .next t) : Ends s t := by
  refine Runs.complete ?_ k
  exact (Runs.refl s).update rfl rfl rfl id rfl rfl rfl rfl
theorem execAddd_ends {o : Src16} {s t : State} (k : execAddd o s = .next t) : Ends s t := arithD_ends k
theorem execSubd_ends {o : Src16} {s t : State} (k : execSubd o s = .next t) : Ends s t := arithD_ends k
theorem execCmpd_ends {o : Src16} {s t : State} (k : execCmpd o s = .next t) : Ends s t := compare16_ends k
theorem execCmpx_ends {o : Src16} {s t : State} (k : execCmpx o s = .next t) : Ends s t := compare16_ends k
theorem execCmpy_ends {o : Src16} {s t : State} (k : execCmpy o s = .next t) : Ends s t := compare16_ends k
theorem execCmpu_ends {o : Src16} {s t : State} (k : execCmpu o s = .next t) : Ends s t := compare16_ends k
theorem execCmps_ends {o : Src16} {s t : State} (k : execCmps o s = .next t) : Ends s t := compare16_ends k
theorem execLdd_ends {o : Src16} {s t : State} (k : execLdd o s = .next t) : Ends s t :=
  load16_ends (f := State.setD)
    (fun _ _ h => h.update rfl rfl rfl id rfl rfl rfl rfl) k
theorem execLdx_ends {o : Src16} {s t : State} (k : execLdx o s = .next t) : Ends s t :=
  load16_ends (f := fun v s => { s with x := v })
    (fun _ _ h => h.update rfl rfl rfl id rfl rfl rfl rfl) k
theorem execLdy_ends {o : Src16} {s t : State} (k : execLdy o s = .next t) : Ends s t :=
  load16_ends (f := fun v s => { s with y := v })
    (fun _ _ h => h.update rfl rfl rfl id rfl rfl rfl rfl) k
theorem execLdu_ends {o : Src16} {s t : State} (k : execLdu o s = .next t) : Ends s t :=
  load16_ends (f := fun v s => { s with u := v })
    (fun _ _ h => h.update rfl rfl rfl id rfl rfl rfl rfl) k
theorem execLds_ends {o : Src16} {s t : State} (k : execLds o s = .next t) : Ends s t :=
  load16_ends (f := State.loadS) (fun _ _ h => h.update rfl rfl rfl (fun _ => rfl) rfl rfl rfl rfl) k
theorem execStd_ends {m : MemOp} {s t : State} (k : execStd m s = .next t) : Ends s t := store16_ends k
theorem execStx_ends {m : MemOp} {s t : State} (k : execStx m s = .next t) : Ends s t := store16_ends k
theorem execSty_ends {m : MemOp} {s t : State} (k : execSty m s = .next t) : Ends s t := store16_ends k
theorem execStu_ends {m : MemOp} {s t : State} (k : execStu m s = .next t) : Ends s t := store16_ends k
theorem execSts_ends {m : MemOp} {s t : State} (k : execSts m s = .next t) : Ends s t := store16_ends k
theorem execStxImm_ends {s t : State} (k : execStxImm s = .next t) : Ends s t := storeImm_ends k
theorem execStuImm_ends {s t : State} (k : execStuImm s = .next t) : Ends s t := storeImm_ends k
theorem execLeax_ends {x : Indexed} {s t : State} (k : execLeax x s = .next t) : Ends s t :=
  lea_ends (f := fun v s => { s with x := v, cc := setCc .z (v == 0#16) s.cc })
    (fun _ _ h => h.update rfl rfl rfl id rfl rfl rfl rfl) k
theorem execLeay_ends {x : Indexed} {s t : State} (k : execLeay x s = .next t) : Ends s t :=
  lea_ends (f := fun v s => { s with y := v, cc := setCc .z (v == 0#16) s.cc })
    (fun _ _ h => h.update rfl rfl rfl id rfl rfl rfl rfl) k
theorem execLeas_ends {x : Indexed} {s t : State} (k : execLeas x s = .next t) : Ends s t :=
  lea_ends (f := State.loadS) (fun _ _ h => h.update rfl rfl rfl (fun _ => rfl) rfl rfl rfl rfl) k
theorem execLeau_ends {x : Indexed} {s t : State} (k : execLeau x s = .next t) : Ends s t :=
  lea_ends (f := fun v s => { s with u := v })
    (fun _ _ h => h.update rfl rfl rfl id rfl rfl rfl rfl) k
theorem execAbx_ends {s t : State} (k : execAbx s = .next t) : Ends s t := by
  refine Runs.complete (Runs.filler ?_) k
  exact ((Runs.refl s).dummy _).update rfl rfl rfl id rfl rfl rfl rfl
theorem execMul_ends {s t : State} (k : execMul s = .next t) : Ends s t := by
  refine Runs.complete (Runs.fillers ?_ 9) k
  exact ((Runs.refl s).dummy _).update rfl rfl rfl id rfl rfl rfl rfl
theorem execSex_ends {s t : State} (k : execSex s = .next t) : Ends s t := by
  refine Runs.complete ?_ k
  exact ((Runs.refl s).dummy _).update rfl rfl rfl id rfl rfl rfl rfl
theorem execDaa_ends {s t : State} (k : execDaa s = .next t) : Ends s t := by
  refine Runs.complete ?_ k
  exact ((Runs.refl s).dummy _).update rfl rfl rfl id rfl rfl rfl rfl
theorem execTfr_ends {r1 r2 : TReg} {s t : State} (k : execTfr r1 r2 s = .next t) : Ends s t := by
  unfold execTfr at k
  split at k
  · exact (refuse_next k).elim
  · exact Runs.complete (((Runs.refl s).fillers 4).tregWrite _ _) k
theorem execExg_ends {r1 r2 : TReg} {s t : State} (k : execExg r1 r2 s = .next t) : Ends s t := by
  unfold execExg at k
  split at k
  · exact (refuse_next k).elim
  · exact Runs.complete ((((Runs.refl s).fillers 6).tregWrite _ _).tregWrite _ _) k
theorem execPshs_ends {p : Byte} {s t : State} (k : execPshs p s = .next t) : Ends s t :=
  Runs.complete (((Runs.refl s).fillers 3).pushList .s p) k
theorem execPuls_ends {p : Byte} {s t : State} (k : execPuls p s = .next t) : Ends s t :=
  Runs.complete (((Runs.refl s).fillers 2).pullList .s p).filler k
theorem execPshu_ends {p : Byte} {s t : State} (k : execPshu p s = .next t) : Ends s t :=
  Runs.complete (((Runs.refl s).fillers 3).pushList .u p) k
theorem execPulu_ends {p : Byte} {s t : State} (k : execPulu p s = .next t) : Ends s t :=
  Runs.complete (((Runs.refl s).fillers 2).pullList .u p).filler k
theorem execAndcc_ends {v : Byte} {s t : State} (k : execAndcc v s = .next t) : Ends s t := by
  refine Runs.complete (Runs.filler ?_) k
  exact (Runs.refl s).update rfl rfl rfl id rfl rfl rfl rfl
theorem execOrcc_ends {v : Byte} {s t : State} (k : execOrcc v s = .next t) : Ends s t := by
  refine Runs.complete (Runs.filler ?_) k
  exact (Runs.refl s).update rfl rfl rfl id rfl rfl rfl rfl
theorem execNop_ends {s t : State} (k : execNop s = .next t) : Ends s t := Runs.complete ((Runs.refl s).dummy _) k
theorem execNopDup_ends {s t : State} (k : execNopDup s = .next t) : Ends s t :=
  Runs.complete ((Runs.refl s).dummy _) k
theorem execCcshift_ends {s t : State} (k : execCcshift s = .next t) : Ends s t := by
  refine Runs.complete (Runs.filler ?_) k
  exact ((Runs.refl s).dummy _).update rfl rfl rfl id rfl rfl rfl rfl
theorem execAndccDup_ends {v : Byte} {s t : State} (k : execAndccDup v s = .next t) : Ends s t := by
  unfold execAndccDup at k
  split at k
  · exact (refuse_next k).elim
  · refine Runs.complete (Runs.fillers ?_ 2) k
    exact (Runs.refl s).update rfl rfl rfl id rfl rfl rfl rfl
theorem execBra_ends {off : Byte} {s t : State} (k : execBra off s = .next t) : Ends s t := shortBranch_ends k
theorem execBrn_ends {off : Byte} {s t : State} (k : execBrn off s = .next t) : Ends s t := shortBranch_ends k
theorem execBhi_ends {off : Byte} {s t : State} (k : execBhi off s = .next t) : Ends s t := shortBranch_ends k
theorem execBls_ends {off : Byte} {s t : State} (k : execBls off s = .next t) : Ends s t := shortBranch_ends k
theorem execBcc_ends {off : Byte} {s t : State} (k : execBcc off s = .next t) : Ends s t := shortBranch_ends k
theorem execBcs_ends {off : Byte} {s t : State} (k : execBcs off s = .next t) : Ends s t := shortBranch_ends k
theorem execBne_ends {off : Byte} {s t : State} (k : execBne off s = .next t) : Ends s t := shortBranch_ends k
theorem execBeq_ends {off : Byte} {s t : State} (k : execBeq off s = .next t) : Ends s t := shortBranch_ends k
theorem execBvc_ends {off : Byte} {s t : State} (k : execBvc off s = .next t) : Ends s t := shortBranch_ends k
theorem execBvs_ends {off : Byte} {s t : State} (k : execBvs off s = .next t) : Ends s t := shortBranch_ends k
theorem execBpl_ends {off : Byte} {s t : State} (k : execBpl off s = .next t) : Ends s t := shortBranch_ends k
theorem execBmi_ends {off : Byte} {s t : State} (k : execBmi off s = .next t) : Ends s t := shortBranch_ends k
theorem execBge_ends {off : Byte} {s t : State} (k : execBge off s = .next t) : Ends s t := shortBranch_ends k
theorem execBlt_ends {off : Byte} {s t : State} (k : execBlt off s = .next t) : Ends s t := shortBranch_ends k
theorem execBgt_ends {off : Byte} {s t : State} (k : execBgt off s = .next t) : Ends s t := shortBranch_ends k
theorem execBle_ends {off : Byte} {s t : State} (k : execBle off s = .next t) : Ends s t := shortBranch_ends k
theorem execLbra_ends {off : Word} {s t : State} (k : execLbra off s = .next t) : Ends s t := by
  refine Runs.complete ?_ k
  exact ((Runs.refl s).fillers 2).update rfl rfl rfl id rfl rfl rfl rfl
theorem execLbsr_ends {off : Word} {s t : State} (k : execLbsr off s = .next t) : Ends s t :=
  callTarget_ends ((Runs.refl s).fillers 2) k
theorem execLbrn_ends {off : Word} {s t : State} (k : execLbrn off s = .next t) : Ends s t := longBranch_ends k
theorem execLbhi_ends {off : Word} {s t : State} (k : execLbhi off s = .next t) : Ends s t := longBranch_ends k
theorem execLbls_ends {off : Word} {s t : State} (k : execLbls off s = .next t) : Ends s t := longBranch_ends k
theorem execLbcc_ends {off : Word} {s t : State} (k : execLbcc off s = .next t) : Ends s t := longBranch_ends k
theorem execLbcs_ends {off : Word} {s t : State} (k : execLbcs off s = .next t) : Ends s t := longBranch_ends k
theorem execLbne_ends {off : Word} {s t : State} (k : execLbne off s = .next t) : Ends s t := longBranch_ends k
theorem execLbeq_ends {off : Word} {s t : State} (k : execLbeq off s = .next t) : Ends s t := longBranch_ends k
theorem execLbvc_ends {off : Word} {s t : State} (k : execLbvc off s = .next t) : Ends s t := longBranch_ends k
theorem execLbvs_ends {off : Word} {s t : State} (k : execLbvs off s = .next t) : Ends s t := longBranch_ends k
theorem execLbpl_ends {off : Word} {s t : State} (k : execLbpl off s = .next t) : Ends s t := longBranch_ends k
theorem execLbmi_ends {off : Word} {s t : State} (k : execLbmi off s = .next t) : Ends s t := longBranch_ends k
theorem execLbge_ends {off : Word} {s t : State} (k : execLbge off s = .next t) : Ends s t := longBranch_ends k
theorem execLblt_ends {off : Word} {s t : State} (k : execLblt off s = .next t) : Ends s t := longBranch_ends k
theorem execLbgt_ends {off : Word} {s t : State} (k : execLbgt off s = .next t) : Ends s t := longBranch_ends k
theorem execLble_ends {off : Word} {s t : State} (k : execLble off s = .next t) : Ends s t := longBranch_ends k
theorem execBsr_ends {off : Byte} {s t : State} (k : execBsr off s = .next t) : Ends s t :=
  callTarget_ends (Runs.refl s).filler k
theorem execJmp_ends {m : MemOp} {s t : State} (k : execJmp m s = .next t) : Ends s t := by
  refine Runs.complete ?_ k
  exact ((Runs.refl s).ea m).update rfl rfl rfl id rfl rfl rfl rfl
theorem execJsr_ends {m : MemOp} {s t : State} (k : execJsr m s = .next t) : Ends s t :=
  callTarget_ends ((Runs.refl s).ea m) k
theorem execRts_ends {s t : State} (k : execRts s = .next t) : Ends s t := by
  refine Runs.complete (Runs.filler ?_) k
  exact (((Runs.refl s).dummy _).pull16 .s).update rfl rfl rfl id rfl rfl rfl rfl
theorem execSwi_ends {s t : State} (k : execSwi s = .next t) : Ends s t := softwareInterrupt_ends (by decide) k
theorem execSwi2_ends {s t : State} (k : execSwi2 s = .next t) : Ends s t := softwareInterrupt_ends (by decide) k
theorem execSwi3_ends {s t : State} (k : execSwi3 s = .next t) : Ends s t := softwareInterrupt_ends (by decide) k
theorem execRti_ends {s t : State} (k : execRti s = .next t) : Ends s t := by
  refine Runs.complete (Runs.filler (Runs.pullList ?_ _ _)) k
  exact (((Runs.refl s).dummy _).pull8 .s).update rfl rfl rfl id rfl rfl rfl rfl
theorem execCwai_ends {v : Byte} {s t : State} (k : execCwai v s = .next t) : Ends s t := by
  refine .wait _ ?_ (settle_next k).1
  refine Runs.pushList (Runs.filler (Runs.dummy ?_ _)) _ _
  exact (Runs.refl s).update rfl rfl rfl id rfl rfl rfl rfl
theorem execSync_ends {s t : State} (k : execSync s = .next t) : Ends s t :=
  Runs.settleGoto ((Runs.refl s).dummy s.pc).filler (by simp) k
theorem execResetIll_ends {s t : State} (k : execResetIll s = .next t) : Ends s t :=
  softwareInterrupt_ends (by decide) k
theorem execHcf_ends {op : HcfOp} {s t : State} (k : execHcf op s = .next t) : Ends s t :=
  (Runs.refl s).settleGoto (by simp) k
theorem execPage2Undefined_ends {b : Byte} {s t : State} (k : execPage2Undefined b s = .next t) : Ends s t :=
  undefinedByte_ends k
theorem execPage3Undefined_ends {b : Byte} {s t : State} (k : execPage3Undefined b s = .next t) : Ends s t :=
  undefinedByte_ends k
theorem execPage2Prefix_ends {s t : State} (k : execPage2Prefix s = .next t) : Ends s t :=
  (Runs.refl s).settleGoto (by simp) k
theorem execPage3Prefix_ends {s t : State} (k : execPage3Prefix s = .next t) : Ends s t :=
  (Runs.refl s).settleGoto (by simp) k

/-- What every instruction keeps, and how it can end, whatever the host does. -/
theorem exec_ends {i : Instr} {s t : State} (k : exec i s = .next t) : Ends s t := by
  cases i
  case neg => exact execNeg_ends k
  case negDup => exact execNegDup_ends k
  case negcom => exact execNegcom_ends k
  case com => exact execCom_ends k
  case lsr => exact execLsr_ends k
  case lsrDup => exact execLsrDup_ends k
  case ror => exact execRor_ends k
  case asr => exact execAsr_ends k
  case asl => exact execAsl_ends k
  case rol => exact execRol_ends k
  case dec => exact execDec_ends k
  case decDup => exact execDecDup_ends k
  case inc => exact execInc_ends k
  case tst => exact execTst_ends k
  case clr => exact execClr_ends k
  case nega => exact execNega_ends k
  case negb => exact execNegb_ends k
  case negaDup => exact execNegaDup_ends k
  case negbDup => exact execNegbDup_ends k
  case negcoma => exact execNegcoma_ends k
  case negcomb => exact execNegcomb_ends k
  case coma => exact execComa_ends k
  case comb => exact execComb_ends k
  case lsra => exact execLsra_ends k
  case lsrb => exact execLsrb_ends k
  case lsraDup => exact execLsraDup_ends k
  case lsrbDup => exact execLsrbDup_ends k
  case rora => exact execRora_ends k
  case rorb => exact execRorb_ends k
  case asra => exact execAsra_ends k
  case asrb => exact execAsrb_ends k
  case asla => exact execAsla_ends k
  case aslb => exact execAslb_ends k
  case rola => exact execRola_ends k
  case rolb => exact execRolb_ends k
  case deca => exact execDeca_ends k
  case decb => exact execDecb_ends k
  case decaDup => exact execDecaDup_ends k
  case decbDup => exact execDecbDup_ends k
  case inca => exact execInca_ends k
  case incb => exact execIncb_ends k
  case tsta => exact execTsta_ends k
  case tstb => exact execTstb_ends k
  case clra => exact execClra_ends k
  case clrb => exact execClrb_ends k
  case clraDup => exact execClraDup_ends k
  case clrbDup => exact execClrbDup_ends k
  case suba => exact execSuba_ends k
  case subb => exact execSubb_ends k
  case cmpa => exact execCmpa_ends k
  case cmpb => exact execCmpb_ends k
  case sbca => exact execSbca_ends k
  case sbcb => exact execSbcb_ends k
  case anda => exact execAnda_ends k
  case andb => exact execAndb_ends k
  case bita => exact execBita_ends k
  case bitb => exact execBitb_ends k
  case lda => exact execLda_ends k
  case ldb => exact execLdb_ends k
  case sta => exact execSta_ends k
  case stb => exact execStb_ends k
  case eora => exact execEora_ends k
  case eorb => exact execEorb_ends k
  case adca => exact execAdca_ends k
  case adcb => exact execAdcb_ends k
  case ora => exact execOra_ends k
  case orb => exact execOrb_ends k
  case adda => exact execAdda_ends k
  case addb => exact execAddb_ends k
  case discard op v => exact execDiscard_ends (op := op) (v := v) k
  case addd => exact execAddd_ends k
  case subd => exact execSubd_ends k
  case cmpd => exact execCmpd_ends k
  case cmpx => exact execCmpx_ends k
  case cmpy => exact execCmpy_ends k
  case cmpu => exact execCmpu_ends k
  case cmps => exact execCmps_ends k
  case ldd => exact execLdd_ends k
  case ldx => exact execLdx_ends k
  case ldy => exact execLdy_ends k
  case ldu => exact execLdu_ends k
  case lds => exact execLds_ends k
  case std => exact execStd_ends k
  case stx => exact execStx_ends k
  case sty => exact execSty_ends k
  case stu => exact execStu_ends k
  case sts => exact execSts_ends k
  case stxImm => exact execStxImm_ends k
  case stuImm => exact execStuImm_ends k
  case leax => exact execLeax_ends k
  case leay => exact execLeay_ends k
  case leas => exact execLeas_ends k
  case leau => exact execLeau_ends k
  case abx => exact execAbx_ends k
  case mul => exact execMul_ends k
  case sex => exact execSex_ends k
  case daa => exact execDaa_ends k
  case tfr => exact execTfr_ends k
  case exg => exact execExg_ends k
  case pshs => exact execPshs_ends k
  case puls => exact execPuls_ends k
  case pshu => exact execPshu_ends k
  case pulu => exact execPulu_ends k
  case andcc => exact execAndcc_ends k
  case orcc => exact execOrcc_ends k
  case nop => exact execNop_ends k
  case nopDup => exact execNopDup_ends k
  case ccshift => exact execCcshift_ends k
  case andccDup => exact execAndccDup_ends k
  case bra => exact execBra_ends k
  case brn => exact execBrn_ends k
  case bhi => exact execBhi_ends k
  case bls => exact execBls_ends k
  case bcc => exact execBcc_ends k
  case bcs => exact execBcs_ends k
  case bne => exact execBne_ends k
  case beq => exact execBeq_ends k
  case bvc => exact execBvc_ends k
  case bvs => exact execBvs_ends k
  case bpl => exact execBpl_ends k
  case bmi => exact execBmi_ends k
  case bge => exact execBge_ends k
  case blt => exact execBlt_ends k
  case bgt => exact execBgt_ends k
  case ble => exact execBle_ends k
  case lbra => exact execLbra_ends k
  case lbsr => exact execLbsr_ends k
  case lbrn => exact execLbrn_ends k
  case lbhi => exact execLbhi_ends k
  case lbls => exact execLbls_ends k
  case lbcc => exact execLbcc_ends k
  case lbcs => exact execLbcs_ends k
  case lbne => exact execLbne_ends k
  case lbeq => exact execLbeq_ends k
  case lbvc => exact execLbvc_ends k
  case lbvs => exact execLbvs_ends k
  case lbpl => exact execLbpl_ends k
  case lbmi => exact execLbmi_ends k
  case lbge => exact execLbge_ends k
  case lblt => exact execLblt_ends k
  case lbgt => exact execLbgt_ends k
  case lble => exact execLble_ends k
  case bsr => exact execBsr_ends k
  case jmp => exact execJmp_ends k
  case jsr => exact execJsr_ends k
  case rts => exact execRts_ends k
  case swi => exact execSwi_ends k
  case swi2 => exact execSwi2_ends k
  case swi3 => exact execSwi3_ends k
  case rti => exact execRti_ends k
  case cwai => exact execCwai_ends k
  case sync => exact execSync_ends k
  case resetIll => exact execResetIll_ends k
  case hcf op => exact execHcf_ends (op := op) k
  case page2Undefined b => exact execPage2Undefined_ends (b := b) k
  case page3Undefined b => exact execPage3Undefined_ends (b := b) k
  case page2Prefix => exact execPage2Prefix_ends k
  case page3Prefix => exact execPage3Prefix_ends k

end Sys2Proof.Machine
end

