-- ==== Sys2Proof/Laws/Stack.lean ====
section
/-! SUPPORT. The stacks under a host that does not interfere: a push of a register list is `pushed`, a pull is
`pulledS` or `pulledU`. -/

namespace Sys2Proof.Machine

/-! ### Sequences of pushed bytes -/

theorem pushBus_append (sp : Word) (l k : List Byte) :
    pushBus sp (l ++ k) = pushBus sp l ++ pushBus (sp - BitVec.ofNat 16 l.length) k := by
  induction l generalizing sp with
  | nil => simp [pushBus]
  | cons v vs ih =>
    have e : sp - 1#16 - BitVec.ofNat 16 vs.length = sp - BitVec.ofNat 16 (vs.length + 1) := by
      rw [BitVec.ofNat_add]; bv_omega
    simp [pushBus, ih, e]

theorem pushMem_append (m : Memory) (sp : Word) (l k : List Byte) :
    pushMem m sp (l ++ k) = pushMem (pushMem m sp l) (sp - BitVec.ofNat 16 l.length) k := by
  induction l generalizing sp m with
  | nil => simp [pushMem]
  | cons v vs ih =>
    have e : sp - 1#16 - BitVec.ofNat 16 vs.length = sp - BitVec.ofNat 16 (vs.length + 1) := by
      rw [BitVec.ofNat_add]; bv_omega
    simp [pushMem, ih, e]

@[simp] theorem pushBus_length (sp : Word) (l : List Byte) : (pushBus sp l).length = l.length := by
  induction l generalizing sp with
  | nil => rfl
  | cons v vs ih => simp [pushBus, ih]

/-- The state after the given bytes are pushed, the first one highest. -/
def pushBytes (st : Stack) (l : List Byte) (s : State) : State :=
  { (s.setSp st (s.sp st - BitVec.ofNat 16 l.length)).after (pushBus (s.sp st) l) with
    mem := pushMem s.mem (s.sp st) l }

@[simp] theorem State.sp_setSp (st : Stack) (v : Word) (s : State) : (s.setSp st v).sp st = v := by cases st <;> rfl
@[simp] theorem State.setSp_setSp (st : Stack) (v w : Word) (s : State) :
    (s.setSp st v).setSp st w = s.setSp st w := by cases st <;> rfl
@[simp] theorem State.setSp_sp (st : Stack) (s : State) : s.setSp st (s.sp st) = s := by cases st <;> rfl
@[simp] theorem State.otherSp_setSp (st : Stack) (v : Word) (s : State) : (s.setSp st v).otherSp st = s.otherSp st := by
  cases st <;> rfl

@[simp] theorem pushBytes_script (st : Stack) (l : List Byte) (s : State) :
    (pushBytes st l s).script = s.script := by cases st <;> rfl
@[simp] theorem pushBytes_sp (st : Stack) (l : List Byte) (s : State) :
    (pushBytes st l s).sp st = s.sp st - BitVec.ofNat 16 l.length := by cases st <;> rfl
@[simp] theorem pushBytes_nil (st : Stack) (s : State) : pushBytes st [] s = s := by
  cases st <;> simp [pushBytes, pushBus, pushMem, State.setSp, State.sp]

theorem pushBytes_append (st : Stack) (l k : List Byte) (s : State) :
    pushBytes st k (pushBytes st l s) = pushBytes st (l ++ k) s := by
  cases st <;>
    simp [pushBytes, State.setSp, State.sp, State.after, pushBus_append, pushMem_append, BitVec.ofNat_add,
      BitVec.sub_sub, BitVec.add_assoc]

theorem push8_quiet {s : State} (h : s.script = []) (st : Stack) (v : Byte) : push8 st v s = pushBytes st [v] s := by
  cases st <;>
    simp [push8, State.sp, State.setSp, writeCycle_quiet, h, pushBytes, pushBus, pushMem, State.after]

theorem push16_quiet {s : State} (h : s.script = []) (st : Stack) (v : Word) :
    push16 st v s = pushBytes st [loByte v, hiByte v] s := by
  simp [push16, push8_quiet, h, pushBytes_append]

theorem push8If_quiet {s : State} (h : s.script = []) (c : Bool) (st : Stack) (f : State → Byte) :
    push8If c st f s = pushBytes st (if c then [f s] else []) s := by
  cases c <;> simp [push8If, push8_quiet h]

theorem push16If_quiet {s : State} (h : s.script = []) (c : Bool) (st : Stack) (f : State → Word) :
    push16If c st f s = pushBytes st (if c then [loByte (f s), hiByte (f s)] else []) s := by
  cases c <;> simp [push16If, push16_quiet h]

@[simp] theorem pushBytes_a (st : Stack) (l : List Byte) (s : State) : (pushBytes st l s).a = s.a := by cases st <;> rfl
@[simp] theorem pushBytes_b (st : Stack) (l : List Byte) (s : State) : (pushBytes st l s).b = s.b := by cases st <;> rfl
@[simp] theorem pushBytes_x (st : Stack) (l : List Byte) (s : State) : (pushBytes st l s).x = s.x := by cases st <;> rfl
@[simp] theorem pushBytes_y (st : Stack) (l : List Byte) (s : State) : (pushBytes st l s).y = s.y := by cases st <;> rfl
@[simp] theorem pushBytes_dp (st : Stack) (l : List Byte) (s : State) : (pushBytes st l s).dp = s.dp := by
  cases st <;> rfl
@[simp] theorem pushBytes_cc (st : Stack) (l : List Byte) (s : State) : (pushBytes st l s).cc = s.cc := by
  cases st <;> rfl
@[simp] theorem pushBytes_pc (st : Stack) (l : List Byte) (s : State) : (pushBytes st l s).pc = s.pc := by
  cases st <;> rfl
@[simp] theorem pushBytes_otherSp (st : Stack) (l : List Byte) (s : State) :
    (pushBytes st l s).otherSp st = s.otherSp st := by cases st <;> rfl

theorem listOffset_succ (p : Byte) (k : Nat) :
    listOffset p (k + 1) = listOffset p k + (if p.getLsbD k then (if k < 4 then 1 else 2) else 0) := by
  simp [listOffset, List.range_succ]

@[simp] theorem listOffset_zero (p : Byte) : listOffset p 0 = 0 := rfl

@[simp] theorem pushOrder_length (st : Stack) (p : Byte) (s : State) : (pushOrder st p s).length = listBytes p := by
  simp only [pushOrder, listBytes, listOffset_succ, listOffset_zero, List.length_append]
  simp only [apply_ite List.length, List.length_cons, List.length_nil]
  simp
  omega

/-- R345 `push_list`. -/
theorem pushList_quiet {s : State} (h : s.script = []) (st : Stack) (p : Byte) : pushList st p s = pushed st p s := by
  have e : pushList st p s = pushBytes st (pushOrder st p s) s := by
    simp [pushList, push16If_quiet, push8If_quiet, h, pushBytes_append, pushOrder]
  rw [e]
  simp [pushBytes, pushed]

/-! ### Pulls -/

theorem pull8_quiet {s : State} (h : s.script = []) (st : Stack) :
    pull8 st s = (s.byteAt (s.sp st), (s.setSp st (s.sp st + 1#16)).after [s.look (s.sp st)]) := by
  cases st <;> simp [pull8, readCycle_quiet h, State.setSp, State.sp, State.after]

theorem pull16_quiet {s : State} (h : s.script = []) (st : Stack) :
    pull16 st s = (s.wordAt (s.sp st),
      (s.setSp st (s.sp st + 2#16)).after [s.look (s.sp st), s.look (s.sp st + 1#16)]) := by
  cases st <;>
    simp [pull16, pull8_quiet, h, State.setSp, State.sp, State.after, State.wordAt, State.byteAt, State.look,
      BitVec.add_assoc]

/-- The read cycles of the first `n` bytes of a pull. -/
def pullLooks (st : Stack) (n : Nat) (s : State) : List Obs :=
  (List.range n).map fun k => s.look (s.sp st + BitVec.ofNat 16 k)

theorem pullLooks_one (st : Stack) (n : Nat) (s : State) :
    pullLooks st (n + 1) s = pullLooks st n s ++ [s.look (s.sp st + BitVec.ofNat 16 n)] := by
  simp [pullLooks, List.range_succ]

theorem pullLooks_two (st : Stack) (n : Nat) (s : State) :
    pullLooks st (n + 2) s = pullLooks st n s ++
      [s.look (s.sp st + BitVec.ofNat 16 n), s.look (s.sp st + BitVec.ofNat 16 n + 1#16)] := by
  simp [pullLooks, List.range_succ, BitVec.ofNat_add, BitVec.add_assoc]

/-- A pull from S when the registers of the bits below `k` are pulled. -/
def pulledBelowS (p : Byte) (k : Nat) (s : State) : State :=
  { s.after (pullLooks .s (listOffset p k) s) with
    cc := if 0 < k ∧ p.getLsbD 0 then pulledByte .s p 0 s else s.cc,
    a := if 1 < k ∧ p.getLsbD 1 then pulledByte .s p 1 s else s.a,
    b := if 2 < k ∧ p.getLsbD 2 then pulledByte .s p 2 s else s.b,
    dp := if 3 < k ∧ p.getLsbD 3 then pulledByte .s p 3 s else s.dp,
    x := if 4 < k ∧ p.getLsbD 4 then pulledWord .s p 4 s else s.x,
    y := if 5 < k ∧ p.getLsbD 5 then pulledWord .s p 5 s else s.y,
    u := if 6 < k ∧ p.getLsbD 6 then pulledWord .s p 6 s else s.u,
    pc := if 7 < k ∧ p.getLsbD 7 then pulledWord .s p 7 s else s.pc,
    s := s.s + BitVec.ofNat 16 (listOffset p k) }

/-- A pull from U when the registers of the bits below `k` are pulled. -/
def pulledBelowU (p : Byte) (k : Nat) (s : State) : State :=
  { s.after (pullLooks .u (listOffset p k) s) with
    cc := if 0 < k ∧ p.getLsbD 0 then pulledByte .u p 0 s else s.cc,
    a := if 1 < k ∧ p.getLsbD 1 then pulledByte .u p 1 s else s.a,
    b := if 2 < k ∧ p.getLsbD 2 then pulledByte .u p 2 s else s.b,
    dp := if 3 < k ∧ p.getLsbD 3 then pulledByte .u p 3 s else s.dp,
    x := if 4 < k ∧ p.getLsbD 4 then pulledWord .u p 4 s else s.x,
    y := if 5 < k ∧ p.getLsbD 5 then pulledWord .u p 5 s else s.y,
    s := if 6 < k ∧ p.getLsbD 6 then pulledWord .u p 6 s else s.s,
    nmiArmed := s.nmiArmed || (decide (6 < k) && p.getLsbD 6),
    pc := if 7 < k ∧ p.getLsbD 7 then pulledWord .u p 7 s else s.pc,
    u := s.u + BitVec.ofNat 16 (listOffset p k) }

theorem pull8If_quiet {s : State} (h : s.script = []) (c : Bool) (st : Stack) (f : Byte → State → State) :
    pull8If c st f s =
      if c then f (s.byteAt (s.sp st)) ((s.setSp st (s.sp st + 1#16)).after [s.look (s.sp st)]) else s := by
  cases c <;> simp [pull8If, pull8_quiet h]

theorem pull16If_quiet {s : State} (h : s.script = []) (c : Bool) (st : Stack) (f : Word → State → State) :
    pull16If c st f s =
      if c then f (s.wordAt (s.sp st))
        ((s.setSp st (s.sp st + 2#16)).after [s.look (s.sp st), s.look (s.sp st + 1#16)]) else s := by
  cases c <;> simp [pull16If, pull16_quiet h]

theorem pulledBelowS_zero (p : Byte) (s : State) : pulledBelowS p 0 s = s := by
  simp [pulledBelowS, pullLooks]

theorem pulledBelowU_zero (p : Byte) (s : State) : pulledBelowU p 0 s = s := by
  simp [pulledBelowU, pullLooks]

section steps

variable {s : State} (h : s.script = []) (p : Byte)
include h

theorem pulledBelowS_cc : pull8If (p.getLsbD 0) .s (fun v s => { s with cc := v }) (pulledBelowS p 0 s) =
    pulledBelowS p 1 s := by
  cases hp : p.getLsbD 0 <;>
    simp [-BitVec.getLsbD_eq_getElem, pull8If_quiet, h, pulledBelowS, listOffset_succ, hp, pullLooks_one,
      State.after, State.setSp, State.sp, State.byteAt, State.look, pulledByte, BitVec.ofNat_add, BitVec.add_assoc]

theorem pulledBelowS_a : pull8If (p.getLsbD 1) .s (fun v s => { s with a := v }) (pulledBelowS p 1 s) =
    pulledBelowS p 2 s := by
  cases hp : p.getLsbD 1 <;>
    simp [-BitVec.getLsbD_eq_getElem, pull8If_quiet, h, pulledBelowS, listOffset_succ, hp, pullLooks_one,
      State.after, State.setSp, State.sp, State.byteAt, State.look, pulledByte, BitVec.ofNat_add, BitVec.add_assoc]

theorem pulledBelowS_b : pull8If (p.getLsbD 2) .s (fun v s => { s with b := v }) (pulledBelowS p 2 s) =
    pulledBelowS p 3 s := by
  cases hp : p.getLsbD 2 <;>
    simp [-BitVec.getLsbD_eq_getElem, pull8If_quiet, h, pulledBelowS, listOffset_succ, hp, pullLooks_one,
      State.after, State.setSp, State.sp, State.byteAt, State.look, pulledByte, BitVec.ofNat_add, BitVec.add_assoc]

theorem pulledBelowS_dp : pull8If (p.getLsbD 3) .s (fun v s => { s with dp := v }) (pulledBelowS p 3 s) =
    pulledBelowS p 4 s := by
  cases hp : p.getLsbD 3 <;>
    simp [-BitVec.getLsbD_eq_getElem, pull8If_quiet, h, pulledBelowS, listOffset_succ, hp, pullLooks_one,
      State.after, State.setSp, State.sp, State.byteAt, State.look, pulledByte, BitVec.ofNat_add, BitVec.add_assoc]

theorem pulledBelowS_x : pull16If (p.getLsbD 4) .s (fun v s => { s with x := v }) (pulledBelowS p 4 s) =
    pulledBelowS p 5 s := by
  cases hp : p.getLsbD 4 <;>
    simp [-BitVec.getLsbD_eq_getElem, pull16If_quiet, h, pulledBelowS, listOffset_succ, hp, pullLooks_two,
      State.after, State.setSp, State.sp, State.byteAt, State.look, State.wordAt, pulledWord, BitVec.ofNat_add,
      BitVec.add_assoc]

theorem pulledBelowS_y : pull16If (p.getLsbD 5) .s (fun v s => { s with y := v }) (pulledBelowS p 5 s) =
    pulledBelowS p 6 s := by
  cases hp : p.getLsbD 5 <;>
    simp [-BitVec.getLsbD_eq_getElem, pull16If_quiet, h, pulledBelowS, listOffset_succ, hp, pullLooks_two,
      State.after, State.setSp, State.sp, State.byteAt, State.look, State.wordAt, pulledWord, BitVec.ofNat_add,
      BitVec.add_assoc]

theorem pulledBelowS_u : pull16If (p.getLsbD 6) .s (State.setOtherSp .s) (pulledBelowS p 6 s) =
    pulledBelowS p 7 s := by
  cases hp : p.getLsbD 6 <;>
    simp [-BitVec.getLsbD_eq_getElem, pull16If_quiet, h, pulledBelowS, listOffset_succ, hp, pullLooks_two,
      State.after, State.setSp, State.sp, State.byteAt, State.look, State.wordAt, pulledWord, State.setOtherSp,
      BitVec.ofNat_add, BitVec.add_assoc]

theorem pulledBelowS_pc : pull16If (p.getLsbD 7) .s (fun v s => { s with pc := v }) (pulledBelowS p 7 s) =
    pulledBelowS p 8 s := by
  cases hp : p.getLsbD 7 <;>
    simp [-BitVec.getLsbD_eq_getElem, pull16If_quiet, h, pulledBelowS, listOffset_succ, hp, pullLooks_two,
      State.after, State.setSp, State.sp, State.byteAt, State.look, State.wordAt, pulledWord, BitVec.ofNat_add,
      BitVec.add_assoc]

theorem pulledBelowU_cc : pull8If (p.getLsbD 0) .u (fun v s => { s with cc := v }) (pulledBelowU p 0 s) =
    pulledBelowU p 1 s := by
  cases hp : p.getLsbD 0 <;>
    simp [-BitVec.getLsbD_eq_getElem, pull8If_quiet, h, pulledBelowU, listOffset_succ, hp, pullLooks_one,
      State.after, State.setSp, State.sp, State.byteAt, State.look, pulledByte, BitVec.ofNat_add, BitVec.add_assoc]

theorem pulledBelowU_a : pull8If (p.getLsbD 1) .u (fun v s => { s with a := v }) (pulledBelowU p 1 s) =
    pulledBelowU p 2 s := by
  cases hp : p.getLsbD 1 <;>
    simp [-BitVec.getLsbD_eq_getElem, pull8If_quiet, h, pulledBelowU, listOffset_succ, hp, pullLooks_one,
      State.after, State.setSp, State.sp, State.byteAt, State.look, pulledByte, BitVec.ofNat_add, BitVec.add_assoc]

theorem pulledBelowU_b : pull8If (p.getLsbD 2) .u (fun v s => { s with b := v }) (pulledBelowU p 2 s) =
    pulledBelowU p 3 s := by
  cases hp : p.getLsbD 2 <;>
    simp [-BitVec.getLsbD_eq_getElem, pull8If_quiet, h, pulledBelowU, listOffset_succ, hp, pullLooks_one,
      State.after, State.setSp, State.sp, State.byteAt, State.look, pulledByte, BitVec.ofNat_add, BitVec.add_assoc]

theorem pulledBelowU_dp : pull8If (p.getLsbD 3) .u (fun v s => { s with dp := v }) (pulledBelowU p 3 s) =
    pulledBelowU p 4 s := by
  cases hp : p.getLsbD 3 <;>
    simp [-BitVec.getLsbD_eq_getElem, pull8If_quiet, h, pulledBelowU, listOffset_succ, hp, pullLooks_one,
      State.after, State.setSp, State.sp, State.byteAt, State.look, pulledByte, BitVec.ofNat_add, BitVec.add_assoc]

theorem pulledBelowU_x : pull16If (p.getLsbD 4) .u (fun v s => { s with x := v }) (pulledBelowU p 4 s) =
    pulledBelowU p 5 s := by
  cases hp : p.getLsbD 4 <;>
    simp [-BitVec.getLsbD_eq_getElem, pull16If_quiet, h, pulledBelowU, listOffset_succ, hp, pullLooks_two,
      State.after, State.setSp, State.sp, State.byteAt, State.look, State.wordAt, pulledWord, BitVec.ofNat_add,
      BitVec.add_assoc]

theorem pulledBelowU_y : pull16If (p.getLsbD 5) .u (fun v s => { s with y := v }) (pulledBelowU p 5 s) =
    pulledBelowU p 6 s := by
  cases hp : p.getLsbD 5 <;>
    simp [-BitVec.getLsbD_eq_getElem, pull16If_quiet, h, pulledBelowU, listOffset_succ, hp, pullLooks_two,
      State.after, State.setSp, State.sp, State.byteAt, State.look, State.wordAt, pulledWord, BitVec.ofNat_add,
      BitVec.add_assoc]

theorem pulledBelowU_s : pull16If (p.getLsbD 6) .u (State.setOtherSp .u) (pulledBelowU p 6 s) =
    pulledBelowU p 7 s := by
  cases hp : p.getLsbD 6 <;>
    simp [-BitVec.getLsbD_eq_getElem, pull16If_quiet, h, pulledBelowU, listOffset_succ, hp, pullLooks_two,
      State.after, State.setSp, State.sp, State.byteAt, State.look, State.wordAt, pulledWord, State.setOtherSp,
      State.loadS, BitVec.ofNat_add, BitVec.add_assoc]

theorem pulledBelowU_pc : pull16If (p.getLsbD 7) .u (fun v s => { s with pc := v }) (pulledBelowU p 7 s) =
    pulledBelowU p 8 s := by
  cases hp : p.getLsbD 7 <;>
    simp [-BitVec.getLsbD_eq_getElem, pull16If_quiet, h, pulledBelowU, listOffset_succ, hp, pullLooks_two,
      State.after, State.setSp, State.sp, State.byteAt, State.look, State.wordAt, pulledWord, BitVec.ofNat_add,
      BitVec.add_assoc]

/-- R345 `pull_list` on S. -/
theorem pullList_s_quiet : pullList .s p s = pulledS p s := by
  have e : pullList .s p s = pulledBelowS p 8 s := by
    simp only [pullList]
    rw [← pulledBelowS_pc h, ← pulledBelowS_u h, ← pulledBelowS_y h, ← pulledBelowS_x h, ← pulledBelowS_dp h,
      ← pulledBelowS_b h, ← pulledBelowS_a h, ← pulledBelowS_cc h, pulledBelowS_zero]
  rw [e]
  simp [pulledBelowS, pulledS, pullLooks, pullBus, listBytes]

/-- R345 `pull_list` on U. -/
theorem pullList_u_quiet : pullList .u p s = pulledU p s := by
  have e : pullList .u p s = pulledBelowU p 8 s := by
    simp only [pullList]
    rw [← pulledBelowU_pc h, ← pulledBelowU_s h, ← pulledBelowU_y h, ← pulledBelowU_x h, ← pulledBelowU_dp h,
      ← pulledBelowU_b h, ← pulledBelowU_a h, ← pulledBelowU_cc h, pulledBelowU_zero]
  rw [e]
  simp [pulledBelowU, pulledU, pullLooks, pullBus, listBytes]

end steps

/-! ### Entering a handler -/

/-- R522. -/
theorem enterVector_quiet {s : State} (h : s.script = []) (v : Word) (m : Byte) :
    enterVector v m s = entered v m s := by
  simp [enterVector, entered, filler_quiet, readWord_quiet, h, State.after, State.look, State.fill, State.byteAt,
    State.wordAt, BitVec.add_assoc]

@[simp] theorem pushed_script (st : Stack) (p : Byte) (s : State) : (pushed st p s).script = s.script := by
  cases st <;> rfl
@[simp] theorem pushed_hostFault (st : Stack) (p : Byte) (s : State) : (pushed st p s).hostFault = s.hostFault := by
  cases st <;> rfl
@[simp] theorem entered_script (v : Word) (m : Byte) (s : State) : (entered v m s).script = s.script := rfl
@[simp] theorem entered_hostFault (v : Word) (m : Byte) (s : State) : (entered v m s).hostFault = s.hostFault := rfl
@[simp] theorem pulledS_script (p : Byte) (s : State) : (pulledS p s).script = s.script := rfl
@[simp] theorem pulledS_hostFault (p : Byte) (s : State) : (pulledS p s).hostFault = s.hostFault := rfl
@[simp] theorem pulledU_script (p : Byte) (s : State) : (pulledU p s).script = s.script := rfl
@[simp] theorem pulledU_hostFault (p : Byte) (s : State) : (pulledU p s).hostFault = s.hostFault := rfl

/-- R520. -/
theorem stackEntire_quiet {s : State} (h : s.script = []) :
    stackEntire s = pushed .s 0xFF#8 { s with cc := s.cc ||| 0x80#8 } := by
  simp [stackEntire, pushList_quiet, h, ccE]

/-- R521. -/
theorem stackFirq_quiet {s : State} (h : s.script = []) :
    stackFirq s = pushed .s 0x81#8 { s with cc := s.cc &&& 0x7F#8 } := by
  simp [stackFirq, pushList_quiet, h, ccE]

end Sys2Proof.Machine
end

