-- ==== Sys2Proof/Laws/Steps.lean ====
section
/-! SUPPORT. What a step can do, said once, whatever the host does inside it. -/

namespace Sys2Proof.Machine

theorem goto_self {u : State} {p : Phase} (h : u.phase = p) : u = u.goto p := by subst h; rfl

theorem Ends.after {s s' t : State} (h : Runs s s') (e : Ends s' t) : Ends s t := by
  cases e with
  | done u k e => exact .done u (h.trans k) e
  | entry u k e => exact .entry u (h.trans k) e
  | goto u k p hp e => exact .goto u (h.trans k) p hp e
  | wait u k e => exact .wait u (h.trans k) e

theorem runInstruction_ends {pg : Page} {s t : State} (h : runInstruction pg s = .next t) : Ends s t := by
  unfold runInstruction at h
  split at h
  · exact (refuse_next h).elim
  split at h
  · exact Ends.after ((Runs.refl s).fetchInstr pg) (exec_ends h)
  · unfold reject at h; split at h <;> exact (refuse_next h).elim

theorem Runs.hookFetch (s : State) : Runs s (Machine.hookFetch s) :=
  ⟨id, id, id, ⟨[.instructionHook], by simp [Machine.hookFetch], by simp [Machine.hookFetch, Obs.isBus]⟩, rfl, rfl⟩

theorem enterVector_runs (s : State) (v : Word) (m : Byte) :
    ∃ w, Runs s w ∧ enterVector v m s = { w with viaCwai := false, phase := .labelA } := by
  refine ⟨_, ?_, rfl⟩
  refine Runs.filler (Runs.update (Runs.readWord (Runs.filler ?_) _) rfl rfl rfl id rfl rfl rfl rfl)
  refine ⟨id, id, ?_, ⟨[.interruptHook v], by simp, by simp [Obs.isBus]⟩, rfl, rfl⟩
  intro hn; dsimp; split
  · simp
  · exact hn

/-- What every step can do, whatever the host does: the reset, an instruction, the entry of a handler, the choice of a
line, or bus cycles and a move along R530's graph. -/
inductive StepEnds (s t : State) : Prop where
  | reset (hp : s.phase = .reset) (e : t = (resetInit s).goto .resetCheckHalt)
  | instr (h : Ends s t) (hp : s.phase = .nextInstruction ∨ s.phase = .page2 ∨ s.phase = .page3)
  | entry (u : State) (hp : s.phase = .dispatchIrq) (h : Runs s u)
      (e : t = { u with viaCwai := false, phase := .labelA })
  | pick (u : State) (hp : s.phase = .labelB) (h : Runs s u) (l : LineId)
      (e : t = { u with irqSel := some l, viaCwai := false, phase := .dispatchIrq })
  | goto (u : State) (p : Phase) (h : Runs s u) (e : t = u.goto p) (hp : (s.phase, p) ∈
      [(Phase.resetCheckHalt, Phase.resetCheckHalt), (.resetCheckHalt, .labelA), (.labelA, .labelA), (.labelA, .labelB),
       (.labelB, .nextInstruction), (.dispatchIrq, .cwaiCheckHalt), (.sync, .labelB), (.sync, .syncCheckHalt),
       (.syncCheckHalt, .syncCheckHalt), (.syncCheckHalt, .sync), (.cwaiCheckHalt, .cwaiCheckHalt),
       (.cwaiCheckHalt, .dispatchIrq), (.hcf, .hcf)])
      (hv : p = .cwaiCheckHalt → s.phase = .dispatchIrq → s.viaCwai = true)

theorem step_ends {s t : State} (h : step s = .next t) : StepEnds s t := by
  unfold step at h
  split at h
  · next hp => exact .reset hp (settle_next h).1
  · next hp =>
    obtain ⟨rfl, -⟩ := settle_next h
    unfold stepResetCheckHalt
    split
    · exact .goto _ .resetCheckHalt (Runs.refl s).filler (goto_self (by simp [hp])) (by simp [hp]) (by simp)
    · refine .goto _ .labelA ?_ rfl (by simp [hp]) (by simp)
      refine Runs.filler ?_
      exact ((Runs.refl s).filler.readWord _).update rfl rfl rfl id rfl rfl rfl rfl
  · next hp =>
    obtain ⟨rfl, -⟩ := settle_next h
    unfold stepLabelA
    split
    · exact .goto _ .labelA (Runs.refl s).filler (goto_self (by simp [hp])) (by simp [hp]) (by simp)
    · exact .goto s .labelB (Runs.refl s) rfl (by simp [hp]) (by simp)
  · next hp =>
    obtain ⟨rfl, -⟩ := settle_next h
    unfold stepLabelB
    split
    · exact .pick _ hp (((Runs.refl s).dummy _).dummy _) _ rfl
    · exact .goto s .nextInstruction (Runs.refl s) rfl (by simp [hp]) (by simp)
  · next hp =>
    unfold stepDispatchIrq at h
    split at h
    · next hv =>
      split at h
      · obtain ⟨rfl, -⟩ := settle_next h
        exact .goto s .cwaiCheckHalt (Runs.refl s) rfl (by simp [hp]) (fun _ _ => hv)
      · obtain ⟨rfl, -⟩ := settle_next h
        obtain ⟨w, hw, e⟩ := enterVector_runs s _ _
        exact .entry w hp hw e
    · split at h
      · cases h
      · next l _ =>
        obtain ⟨rfl, -⟩ := settle_next h
        have hs : Runs s (stackFrame l (filler s)) := by
          cases l <;> simp only [stackFrame, stackEntire, stackFirq] <;> refine Runs.pushList ?_ _ _ <;>
            exact (Runs.refl s).filler.update rfl rfl rfl id rfl rfl rfl rfl
        obtain ⟨w, hw, e⟩ := enterVector_runs (stackFrame l (filler s)) l.vector l.masks
        exact .entry w hp (hs.trans hw) e
  · next hp => exact .instr (Ends.after (Runs.hookFetch s) (runInstruction_ends h)) (.inl hp)
  · next hp => exact .instr (runInstruction_ends h) (.inr (.inl hp))
  · next hp => exact .instr (runInstruction_ends h) (.inr (.inr hp))
  · next hp =>
    obtain ⟨rfl, -⟩ := settle_next h
    unfold stepSync
    cases s.syncWake
    · exact .goto _ .syncCheckHalt (Runs.refl s).filler rfl (by simp [hp]) (by simp)
    · exact .goto _ .labelB (Runs.refl s).filler rfl (by simp [hp]) (by simp)
  · next hp =>
    obtain ⟨rfl, -⟩ := settle_next h
    unfold stepSyncCheckHalt
    split
    · exact .goto _ .syncCheckHalt (Runs.refl s).filler (goto_self (by simp [hp])) (by simp [hp]) (by simp)
    · exact .goto s .sync (Runs.refl s) rfl (by simp [hp]) (by simp)
  · next hp =>
    obtain ⟨rfl, -⟩ := settle_next h
    unfold stepCwaiCheckHalt
    dsimp only
    split
    · exact .goto _ .cwaiCheckHalt (Runs.refl s).filler (goto_self (by simp [hp])) (by simp [hp]) (by simp [hp])
    · exact .goto _ .dispatchIrq (Runs.refl s).filler rfl (by simp [hp]) (by simp)
  · next hp =>
    obtain ⟨rfl, -⟩ := settle_next h
    exact .goto _ .hcf (Runs.refl s).filler (goto_self (by simp [stepHcf, hp])) (by simp [hp]) (by simp)


end Sys2Proof.Machine
end

