-- ==== Sys2Proof/Tests/Slice0.lean ====
section
/-! SUPPORT. The model's own tests. Every expected value is the spec's: its opcode table, the examples of its rules, its
test vectors V<n> (95_test_vectors.md). The rules' examples are run with PC at 0x2100, away from their operands. The
`witness_…` theorems show states and operands that meet the hypotheses of the statements. -/

namespace Sys2Proof.Tests

open Sys2Proof.Machine

/-! ### Helpers -/

/-- A small state: CC clear, NMI armed. -/
def start : State := { State.reset with pc := 0x2100#16, cc := 0#8, nmiArmed := true }

def poke (a : Word) (v : Byte) (s : State) : State := { s with mem := s.mem.write a.toNat v }

def pokeWord (a v : Word) (s : State) : State := poke a (hiByte v) (poke (a + 1#16) (loByte v) s)

/-- An outcome is a next state of which `post` holds. -/
def next (post : State → Bool) : Out → Bool
  | .next t => post t
  | .fault _ | .refused _ => false

def faults (f : Fault) : Out → Bool
  | .fault g => g == f
  | .next _ | .refused _ => false

def refuses (r : Refusal) : Out → Bool
  | .refused q => q == r
  | .next _ | .fault _ => false

/-- One step runs the bytes of an instruction. -/
def one (pg : Page) (bs : List Byte) (s : State) (post : State → Bool) : Bool := next post (step (placeInstr pg bs s))

def withFlags (fs : List (CcBit × Bool)) (cc : Byte) : Byte := fs.foldl (fun c f => setCc f.1 f.2 c) cc

/-- One step, with the flags not given clear and then set: the flags named are written, the others keep their values. -/
def both (pg : Page) (bs : List Byte) (given written : List (CcBit × Bool)) (s : State) (post : State → Bool) : Bool :=
  [0x00#8, 0xFF#8].all fun base =>
    one pg bs { s with cc := withFlags given base } fun t => t.cc == withFlags written (withFlags given base) && post t

/-- The next state of a step, where there is one. -/
def go (s : State) : State :=
  match step s with
  | .next t => t
  | .fault _ | .refused _ => s

def steps : Nat → State → State
  | 0, s => s
  | n + 1, s => steps n (go s)

/-- The bus cycles since reset, in their order. -/
def bus (s : State) : List Obs := s.trace.reverse.filter Obs.isBus

/-- The instruction completes: `exec` answers a next state. -/
def completes (s : State) (i : Instr) : Bool := next (fun _ => true) (exec i s)

def decodesTo (pg : Page) (bs : List Byte) (i : Instr) : Bool :=
  match decode pg bs with
  | .ok (j, []) => j == i
  | .ok (_, _ :: _) | .error _ => false

/-- Rows of the opcode table: the bytes decode to the instruction and encode it, and a step takes the table's cycles. -/
def rows (pg : Page) (l : List (List Byte × Instr × Nat)) : Bool :=
  l.all fun r => decodesTo pg r.1 r.2.1 && encodeOp r.2.1 == r.1 && r.2.1.page == pg && r.2.1.wf &&
    one pg r.1 start (fun t => t.cycle + BitVec.ofNat 32 pg.prefixBytes.length == BitVec.ofNat 32 r.2.2)

/-- Indexed operands of LDA: bytes after the opcode. -/
def indexes (l : List (List Byte × Indexed)) : Bool :=
  l.all fun r => decodesTo .page0 (0xA6#8 :: r.1) (.lda (.mem (.indexed r.2))) && encIndexed r.2 == r.1 && r.2.wf

/-! ### The opcode table: bytes, instruction, cycles -/

theorem test_opcodes_page0_0x : rows .page0 [
    ([0x00#8, 0x10#8], .neg (.direct 0x10#8), 6),
    ([0x01#8, 0x10#8], .negDup (.direct 0x10#8), 6),
    ([0x02#8, 0x10#8], .negcom (.direct 0x10#8), 6),
    ([0x03#8, 0x10#8], .com (.direct 0x10#8), 6),
    ([0x04#8, 0x10#8], .lsr (.direct 0x10#8), 6),
    ([0x05#8, 0x10#8], .lsrDup (.direct 0x10#8), 6),
    ([0x06#8, 0x10#8], .ror (.direct 0x10#8), 6),
    ([0x07#8, 0x10#8], .asr (.direct 0x10#8), 6),
    ([0x08#8, 0x10#8], .asl (.direct 0x10#8), 6),
    ([0x09#8, 0x10#8], .rol (.direct 0x10#8), 6),
    ([0x0A#8, 0x10#8], .dec (.direct 0x10#8), 6),
    ([0x0B#8, 0x10#8], .decDup (.direct 0x10#8), 6),
    ([0x0C#8, 0x10#8], .inc (.direct 0x10#8), 6),
    ([0x0D#8, 0x10#8], .tst (.direct 0x10#8), 6),
    ([0x0E#8, 0x10#8], .jmp (.direct 0x10#8), 3),
    ([0x0F#8, 0x10#8], .clr (.direct 0x10#8), 6)] := by decide

theorem test_opcodes_page0_1x : rows .page0 [
    ([0x10#8], .page2Prefix, 1),
    ([0x11#8], .page3Prefix, 1),
    ([0x12#8], .nop, 2),
    ([0x13#8], .sync, 3),
    ([0x14#8], .hcf .op14, 1),
    ([0x15#8], .hcf .op15, 1),
    ([0x16#8, 0xFF#8, 0x80#8], .lbra 0xFF80#16, 5),
    ([0x17#8, 0xFF#8, 0x80#8], .lbsr 0xFF80#16, 9),
    ([0x18#8], .ccshift, 3),
    ([0x19#8], .daa, 2),
    ([0x1A#8, 0x42#8], .orcc 0x42#8, 3),
    ([0x1B#8], .nopDup, 2),
    ([0x1C#8, 0x42#8], .andcc 0x42#8, 3),
    ([0x1D#8], .sex, 2),
    ([0x1E#8, 0x19#8], .exg .x .b, 8),
    ([0x1F#8, 0x19#8], .tfr .x .b, 6)] := by decide

theorem test_opcodes_page0_2x : rows .page0 [
    ([0x20#8, 0xFE#8], .bra 0xFE#8, 3),
    ([0x21#8, 0xFE#8], .brn 0xFE#8, 3),
    ([0x22#8, 0xFE#8], .bhi 0xFE#8, 3),
    ([0x23#8, 0xFE#8], .bls 0xFE#8, 3),
    ([0x24#8, 0xFE#8], .bcc 0xFE#8, 3),
    ([0x25#8, 0xFE#8], .bcs 0xFE#8, 3),
    ([0x26#8, 0xFE#8], .bne 0xFE#8, 3),
    ([0x27#8, 0xFE#8], .beq 0xFE#8, 3),
    ([0x28#8, 0xFE#8], .bvc 0xFE#8, 3),
    ([0x29#8, 0xFE#8], .bvs 0xFE#8, 3),
    ([0x2A#8, 0xFE#8], .bpl 0xFE#8, 3),
    ([0x2B#8, 0xFE#8], .bmi 0xFE#8, 3),
    ([0x2C#8, 0xFE#8], .bge 0xFE#8, 3),
    ([0x2D#8, 0xFE#8], .blt 0xFE#8, 3),
    ([0x2E#8, 0xFE#8], .bgt 0xFE#8, 3),
    ([0x2F#8, 0xFE#8], .ble 0xFE#8, 3)] := by decide

theorem test_opcodes_page0_3x : rows .page0 [
    ([0x30#8, 0xA4#8], .leax ⟨.y, .zero, false⟩, 4),
    ([0x31#8, 0xA4#8], .leay ⟨.y, .zero, false⟩, 4),
    ([0x32#8, 0xA4#8], .leas ⟨.y, .zero, false⟩, 4),
    ([0x33#8, 0xA4#8], .leau ⟨.y, .zero, false⟩, 4),
    ([0x34#8, 0x86#8], .pshs 0x86#8, 9),
    ([0x35#8, 0x86#8], .puls 0x86#8, 9),
    ([0x36#8, 0x86#8], .pshu 0x86#8, 9),
    ([0x37#8, 0x86#8], .pulu 0x86#8, 9),
    ([0x38#8, 0x42#8], .andccDup 0x42#8, 4),
    ([0x39#8], .rts, 5),
    ([0x3A#8], .abx, 3),
    ([0x3B#8], .rti, 6),
    ([0x3C#8, 0x42#8], .cwai 0x42#8, 16),
    ([0x3D#8], .mul, 11),
    ([0x3E#8], .resetIll, 19),
    ([0x3F#8], .swi, 19)] := by decide

theorem test_opcodes_page0_4x : rows .page0 [
    ([0x40#8], .nega, 2),
    ([0x41#8], .negaDup, 2),
    ([0x42#8], .negcoma, 2),
    ([0x43#8], .coma, 2),
    ([0x44#8], .lsra, 2),
    ([0x45#8], .lsraDup, 2),
    ([0x46#8], .rora, 2),
    ([0x47#8], .asra, 2),
    ([0x48#8], .asla, 2),
    ([0x49#8], .rola, 2),
    ([0x4A#8], .deca, 2),
    ([0x4B#8], .decaDup, 2),
    ([0x4C#8], .inca, 2),
    ([0x4D#8], .tsta, 2),
    ([0x4E#8], .clraDup, 2),
    ([0x4F#8], .clra, 2)] := by decide

theorem test_opcodes_page0_5x : rows .page0 [
    ([0x50#8], .negb, 2),
    ([0x51#8], .negbDup, 2),
    ([0x52#8], .negcomb, 2),
    ([0x53#8], .comb, 2),
    ([0x54#8], .lsrb, 2),
    ([0x55#8], .lsrbDup, 2),
    ([0x56#8], .rorb, 2),
    ([0x57#8], .asrb, 2),
    ([0x58#8], .aslb, 2),
    ([0x59#8], .rolb, 2),
    ([0x5A#8], .decb, 2),
    ([0x5B#8], .decbDup, 2),
    ([0x5C#8], .incb, 2),
    ([0x5D#8], .tstb, 2),
    ([0x5E#8], .clrbDup, 2),
    ([0x5F#8], .clrb, 2)] := by decide

theorem test_opcodes_page0_6x : rows .page0 [
    ([0x60#8, 0xA4#8], .neg (.indexed ⟨.y, .zero, false⟩), 6),
    ([0x61#8, 0xA4#8], .negDup (.indexed ⟨.y, .zero, false⟩), 6),
    ([0x62#8, 0xA4#8], .negcom (.indexed ⟨.y, .zero, false⟩), 6),
    ([0x63#8, 0xA4#8], .com (.indexed ⟨.y, .zero, false⟩), 6),
    ([0x64#8, 0xA4#8], .lsr (.indexed ⟨.y, .zero, false⟩), 6),
    ([0x65#8, 0xA4#8], .lsrDup (.indexed ⟨.y, .zero, false⟩), 6),
    ([0x66#8, 0xA4#8], .ror (.indexed ⟨.y, .zero, false⟩), 6),
    ([0x67#8, 0xA4#8], .asr (.indexed ⟨.y, .zero, false⟩), 6),
    ([0x68#8, 0xA4#8], .asl (.indexed ⟨.y, .zero, false⟩), 6),
    ([0x69#8, 0xA4#8], .rol (.indexed ⟨.y, .zero, false⟩), 6),
    ([0x6A#8, 0xA4#8], .dec (.indexed ⟨.y, .zero, false⟩), 6),
    ([0x6B#8, 0xA4#8], .decDup (.indexed ⟨.y, .zero, false⟩), 6),
    ([0x6C#8, 0xA4#8], .inc (.indexed ⟨.y, .zero, false⟩), 6),
    ([0x6D#8, 0xA4#8], .tst (.indexed ⟨.y, .zero, false⟩), 6),
    ([0x6E#8, 0xA4#8], .jmp (.indexed ⟨.y, .zero, false⟩), 3),
    ([0x6F#8, 0xA4#8], .clr (.indexed ⟨.y, .zero, false⟩), 6)] := by decide

theorem test_opcodes_page0_7x : rows .page0 [
    ([0x70#8, 0x20#8, 0x01#8], .neg (.extended 0x2001#16), 7),
    ([0x71#8, 0x20#8, 0x01#8], .negDup (.extended 0x2001#16), 7),
    ([0x72#8, 0x20#8, 0x01#8], .negcom (.extended 0x2001#16), 7),
    ([0x73#8, 0x20#8, 0x01#8], .com (.extended 0x2001#16), 7),
    ([0x74#8, 0x20#8, 0x01#8], .lsr (.extended 0x2001#16), 7),
    ([0x75#8, 0x20#8, 0x01#8], .lsrDup (.extended 0x2001#16), 7),
    ([0x76#8, 0x20#8, 0x01#8], .ror (.extended 0x2001#16), 7),
    ([0x77#8, 0x20#8, 0x01#8], .asr (.extended 0x2001#16), 7),
    ([0x78#8, 0x20#8, 0x01#8], .asl (.extended 0x2001#16), 7),
    ([0x79#8, 0x20#8, 0x01#8], .rol (.extended 0x2001#16), 7),
    ([0x7A#8, 0x20#8, 0x01#8], .dec (.extended 0x2001#16), 7),
    ([0x7B#8, 0x20#8, 0x01#8], .decDup (.extended 0x2001#16), 7),
    ([0x7C#8, 0x20#8, 0x01#8], .inc (.extended 0x2001#16), 7),
    ([0x7D#8, 0x20#8, 0x01#8], .tst (.extended 0x2001#16), 7),
    ([0x7E#8, 0x20#8, 0x01#8], .jmp (.extended 0x2001#16), 4),
    ([0x7F#8, 0x20#8, 0x01#8], .clr (.extended 0x2001#16), 7)] := by decide

theorem test_opcodes_page0_8x : rows .page0 [
    ([0x80#8, 0x42#8], .suba (.imm 0x42#8), 2),
    ([0x81#8, 0x42#8], .cmpa (.imm 0x42#8), 2),
    ([0x82#8, 0x42#8], .sbca (.imm 0x42#8), 2),
    ([0x83#8, 0x12#8, 0x34#8], .subd (.imm 0x1234#16), 4),
    ([0x84#8, 0x42#8], .anda (.imm 0x42#8), 2),
    ([0x85#8, 0x42#8], .bita (.imm 0x42#8), 2),
    ([0x86#8, 0x42#8], .lda (.imm 0x42#8), 2),
    ([0x87#8, 0x42#8], .discard .op87 0x42#8, 2),
    ([0x88#8, 0x42#8], .eora (.imm 0x42#8), 2),
    ([0x89#8, 0x42#8], .adca (.imm 0x42#8), 2),
    ([0x8A#8, 0x42#8], .ora (.imm 0x42#8), 2),
    ([0x8B#8, 0x42#8], .adda (.imm 0x42#8), 2),
    ([0x8C#8, 0x12#8, 0x34#8], .cmpx (.imm 0x1234#16), 4),
    ([0x8D#8, 0xFE#8], .bsr 0xFE#8, 7),
    ([0x8E#8, 0x12#8, 0x34#8], .ldx (.imm 0x1234#16), 3),
    ([0x8F#8], .stxImm, 3)] := by decide

theorem test_opcodes_page0_9x : rows .page0 [
    ([0x90#8, 0x10#8], .suba (.mem (.direct 0x10#8)), 4),
    ([0x91#8, 0x10#8], .cmpa (.mem (.direct 0x10#8)), 4),
    ([0x92#8, 0x10#8], .sbca (.mem (.direct 0x10#8)), 4),
    ([0x93#8, 0x10#8], .subd (.mem (.direct 0x10#8)), 6),
    ([0x94#8, 0x10#8], .anda (.mem (.direct 0x10#8)), 4),
    ([0x95#8, 0x10#8], .bita (.mem (.direct 0x10#8)), 4),
    ([0x96#8, 0x10#8], .lda (.mem (.direct 0x10#8)), 4),
    ([0x97#8, 0x10#8], .sta (.direct 0x10#8), 4),
    ([0x98#8, 0x10#8], .eora (.mem (.direct 0x10#8)), 4),
    ([0x99#8, 0x10#8], .adca (.mem (.direct 0x10#8)), 4),
    ([0x9A#8, 0x10#8], .ora (.mem (.direct 0x10#8)), 4),
    ([0x9B#8, 0x10#8], .adda (.mem (.direct 0x10#8)), 4),
    ([0x9C#8, 0x10#8], .cmpx (.mem (.direct 0x10#8)), 6),
    ([0x9D#8, 0x10#8], .jsr (.direct 0x10#8), 7),
    ([0x9E#8, 0x10#8], .ldx (.mem (.direct 0x10#8)), 5),
    ([0x9F#8, 0x10#8], .stx (.direct 0x10#8), 5)] := by decide

theorem test_opcodes_page0_Ax : rows .page0 [
    ([0xA0#8, 0xA4#8], .suba (.mem (.indexed ⟨.y, .zero, false⟩)), 4),
    ([0xA1#8, 0xA4#8], .cmpa (.mem (.indexed ⟨.y, .zero, false⟩)), 4),
    ([0xA2#8, 0xA4#8], .sbca (.mem (.indexed ⟨.y, .zero, false⟩)), 4),
    ([0xA3#8, 0xA4#8], .subd (.mem (.indexed ⟨.y, .zero, false⟩)), 6),
    ([0xA4#8, 0xA4#8], .anda (.mem (.indexed ⟨.y, .zero, false⟩)), 4),
    ([0xA5#8, 0xA4#8], .bita (.mem (.indexed ⟨.y, .zero, false⟩)), 4),
    ([0xA6#8, 0xA4#8], .lda (.mem (.indexed ⟨.y, .zero, false⟩)), 4),
    ([0xA7#8, 0xA4#8], .sta (.indexed ⟨.y, .zero, false⟩), 4),
    ([0xA8#8, 0xA4#8], .eora (.mem (.indexed ⟨.y, .zero, false⟩)), 4),
    ([0xA9#8, 0xA4#8], .adca (.mem (.indexed ⟨.y, .zero, false⟩)), 4),
    ([0xAA#8, 0xA4#8], .ora (.mem (.indexed ⟨.y, .zero, false⟩)), 4),
    ([0xAB#8, 0xA4#8], .adda (.mem (.indexed ⟨.y, .zero, false⟩)), 4),
    ([0xAC#8, 0xA4#8], .cmpx (.mem (.indexed ⟨.y, .zero, false⟩)), 6),
    ([0xAD#8, 0xA4#8], .jsr (.indexed ⟨.y, .zero, false⟩), 7),
    ([0xAE#8, 0xA4#8], .ldx (.mem (.indexed ⟨.y, .zero, false⟩)), 5),
    ([0xAF#8, 0xA4#8], .stx (.indexed ⟨.y, .zero, false⟩), 5)] := by decide

theorem test_opcodes_page0_Bx : rows .page0 [
    ([0xB0#8, 0x20#8, 0x01#8], .suba (.mem (.extended 0x2001#16)), 5),
    ([0xB1#8, 0x20#8, 0x01#8], .cmpa (.mem (.extended 0x2001#16)), 5),
    ([0xB2#8, 0x20#8, 0x01#8], .sbca (.mem (.extended 0x2001#16)), 5),
    ([0xB3#8, 0x20#8, 0x01#8], .subd (.mem (.extended 0x2001#16)), 7),
    ([0xB4#8, 0x20#8, 0x01#8], .anda (.mem (.extended 0x2001#16)), 5),
    ([0xB5#8, 0x20#8, 0x01#8], .bita (.mem (.extended 0x2001#16)), 5),
    ([0xB6#8, 0x20#8, 0x01#8], .lda (.mem (.extended 0x2001#16)), 5),
    ([0xB7#8, 0x20#8, 0x01#8], .sta (.extended 0x2001#16), 5),
    ([0xB8#8, 0x20#8, 0x01#8], .eora (.mem (.extended 0x2001#16)), 5),
    ([0xB9#8, 0x20#8, 0x01#8], .adca (.mem (.extended 0x2001#16)), 5),
    ([0xBA#8, 0x20#8, 0x01#8], .ora (.mem (.extended 0x2001#16)), 5),
    ([0xBB#8, 0x20#8, 0x01#8], .adda (.mem (.extended 0x2001#16)), 5),
    ([0xBC#8, 0x20#8, 0x01#8], .cmpx (.mem (.extended 0x2001#16)), 7),
    ([0xBD#8, 0x20#8, 0x01#8], .jsr (.extended 0x2001#16), 8),
    ([0xBE#8, 0x20#8, 0x01#8], .ldx (.mem (.extended 0x2001#16)), 6),
    ([0xBF#8, 0x20#8, 0x01#8], .stx (.extended 0x2001#16), 6)] := by decide

theorem test_opcodes_page0_Cx : rows .page0 [
    ([0xC0#8, 0x42#8], .subb (.imm 0x42#8), 2),
    ([0xC1#8, 0x42#8], .cmpb (.imm 0x42#8), 2),
    ([0xC2#8, 0x42#8], .sbcb (.imm 0x42#8), 2),
    ([0xC3#8, 0x12#8, 0x34#8], .addd (.imm 0x1234#16), 4),
    ([0xC4#8, 0x42#8], .andb (.imm 0x42#8), 2),
    ([0xC5#8, 0x42#8], .bitb (.imm 0x42#8), 2),
    ([0xC6#8, 0x42#8], .ldb (.imm 0x42#8), 2),
    ([0xC7#8, 0x42#8], .discard .opC7 0x42#8, 2),
    ([0xC8#8, 0x42#8], .eorb (.imm 0x42#8), 2),
    ([0xC9#8, 0x42#8], .adcb (.imm 0x42#8), 2),
    ([0xCA#8, 0x42#8], .orb (.imm 0x42#8), 2),
    ([0xCB#8, 0x42#8], .addb (.imm 0x42#8), 2),
    ([0xCC#8, 0x12#8, 0x34#8], .ldd (.imm 0x1234#16), 3),
    ([0xCD#8], .hcf .opCD, 1),
    ([0xCE#8, 0x12#8, 0x34#8], .ldu (.imm 0x1234#16), 3),
    ([0xCF#8], .stuImm, 3)] := by decide

theorem test_opcodes_page0_Dx : rows .page0 [
    ([0xD0#8, 0x10#8], .subb (.mem (.direct 0x10#8)), 4),
    ([0xD1#8, 0x10#8], .cmpb (.mem (.direct 0x10#8)), 4),
    ([0xD2#8, 0x10#8], .sbcb (.mem (.direct 0x10#8)), 4),
    ([0xD3#8, 0x10#8], .addd (.mem (.direct 0x10#8)), 6),
    ([0xD4#8, 0x10#8], .andb (.mem (.direct 0x10#8)), 4),
    ([0xD5#8, 0x10#8], .bitb (.mem (.direct 0x10#8)), 4),
    ([0xD6#8, 0x10#8], .ldb (.mem (.direct 0x10#8)), 4),
    ([0xD7#8, 0x10#8], .stb (.direct 0x10#8), 4),
    ([0xD8#8, 0x10#8], .eorb (.mem (.direct 0x10#8)), 4),
    ([0xD9#8, 0x10#8], .adcb (.mem (.direct 0x10#8)), 4),
    ([0xDA#8, 0x10#8], .orb (.mem (.direct 0x10#8)), 4),
    ([0xDB#8, 0x10#8], .addb (.mem (.direct 0x10#8)), 4),
    ([0xDC#8, 0x10#8], .ldd (.mem (.direct 0x10#8)), 5),
    ([0xDD#8, 0x10#8], .std (.direct 0x10#8), 5),
    ([0xDE#8, 0x10#8], .ldu (.mem (.direct 0x10#8)), 5),
    ([0xDF#8, 0x10#8], .stu (.direct 0x10#8), 5)] := by decide

theorem test_opcodes_page0_Ex : rows .page0 [
    ([0xE0#8, 0xA4#8], .subb (.mem (.indexed ⟨.y, .zero, false⟩)), 4),
    ([0xE1#8, 0xA4#8], .cmpb (.mem (.indexed ⟨.y, .zero, false⟩)), 4),
    ([0xE2#8, 0xA4#8], .sbcb (.mem (.indexed ⟨.y, .zero, false⟩)), 4),
    ([0xE3#8, 0xA4#8], .addd (.mem (.indexed ⟨.y, .zero, false⟩)), 6),
    ([0xE4#8, 0xA4#8], .andb (.mem (.indexed ⟨.y, .zero, false⟩)), 4),
    ([0xE5#8, 0xA4#8], .bitb (.mem (.indexed ⟨.y, .zero, false⟩)), 4),
    ([0xE6#8, 0xA4#8], .ldb (.mem (.indexed ⟨.y, .zero, false⟩)), 4),
    ([0xE7#8, 0xA4#8], .stb (.indexed ⟨.y, .zero, false⟩), 4),
    ([0xE8#8, 0xA4#8], .eorb (.mem (.indexed ⟨.y, .zero, false⟩)), 4),
    ([0xE9#8, 0xA4#8], .adcb (.mem (.indexed ⟨.y, .zero, false⟩)), 4),
    ([0xEA#8, 0xA4#8], .orb (.mem (.indexed ⟨.y, .zero, false⟩)), 4),
    ([0xEB#8, 0xA4#8], .addb (.mem (.indexed ⟨.y, .zero, false⟩)), 4),
    ([0xEC#8, 0xA4#8], .ldd (.mem (.indexed ⟨.y, .zero, false⟩)), 5),
    ([0xED#8, 0xA4#8], .std (.indexed ⟨.y, .zero, false⟩), 5),
    ([0xEE#8, 0xA4#8], .ldu (.mem (.indexed ⟨.y, .zero, false⟩)), 5),
    ([0xEF#8, 0xA4#8], .stu (.indexed ⟨.y, .zero, false⟩), 5)] := by decide

theorem test_opcodes_page0_Fx : rows .page0 [
    ([0xF0#8, 0x20#8, 0x01#8], .subb (.mem (.extended 0x2001#16)), 5),
    ([0xF1#8, 0x20#8, 0x01#8], .cmpb (.mem (.extended 0x2001#16)), 5),
    ([0xF2#8, 0x20#8, 0x01#8], .sbcb (.mem (.extended 0x2001#16)), 5),
    ([0xF3#8, 0x20#8, 0x01#8], .addd (.mem (.extended 0x2001#16)), 7),
    ([0xF4#8, 0x20#8, 0x01#8], .andb (.mem (.extended 0x2001#16)), 5),
    ([0xF5#8, 0x20#8, 0x01#8], .bitb (.mem (.extended 0x2001#16)), 5),
    ([0xF6#8, 0x20#8, 0x01#8], .ldb (.mem (.extended 0x2001#16)), 5),
    ([0xF7#8, 0x20#8, 0x01#8], .stb (.extended 0x2001#16), 5),
    ([0xF8#8, 0x20#8, 0x01#8], .eorb (.mem (.extended 0x2001#16)), 5),
    ([0xF9#8, 0x20#8, 0x01#8], .adcb (.mem (.extended 0x2001#16)), 5),
    ([0xFA#8, 0x20#8, 0x01#8], .orb (.mem (.extended 0x2001#16)), 5),
    ([0xFB#8, 0x20#8, 0x01#8], .addb (.mem (.extended 0x2001#16)), 5),
    ([0xFC#8, 0x20#8, 0x01#8], .ldd (.mem (.extended 0x2001#16)), 6),
    ([0xFD#8, 0x20#8, 0x01#8], .std (.extended 0x2001#16), 6),
    ([0xFE#8, 0x20#8, 0x01#8], .ldu (.mem (.extended 0x2001#16)), 6),
    ([0xFF#8, 0x20#8, 0x01#8], .stu (.extended 0x2001#16), 6)] := by decide

theorem test_opcodes_page2_branches : rows .page2 [
    ([0x21#8, 0xFF#8, 0x80#8], .lbrn 0xFF80#16, 5),
    ([0x22#8, 0xFF#8, 0x80#8], .lbhi 0xFF80#16, 6),
    ([0x23#8, 0xFF#8, 0x80#8], .lbls 0xFF80#16, 5),
    ([0x24#8, 0xFF#8, 0x80#8], .lbcc 0xFF80#16, 6),
    ([0x25#8, 0xFF#8, 0x80#8], .lbcs 0xFF80#16, 5),
    ([0x26#8, 0xFF#8, 0x80#8], .lbne 0xFF80#16, 6),
    ([0x27#8, 0xFF#8, 0x80#8], .lbeq 0xFF80#16, 5),
    ([0x28#8, 0xFF#8, 0x80#8], .lbvc 0xFF80#16, 6),
    ([0x29#8, 0xFF#8, 0x80#8], .lbvs 0xFF80#16, 5),
    ([0x2A#8, 0xFF#8, 0x80#8], .lbpl 0xFF80#16, 6),
    ([0x2B#8, 0xFF#8, 0x80#8], .lbmi 0xFF80#16, 5),
    ([0x2C#8, 0xFF#8, 0x80#8], .lbge 0xFF80#16, 6),
    ([0x2D#8, 0xFF#8, 0x80#8], .lblt 0xFF80#16, 5),
    ([0x2E#8, 0xFF#8, 0x80#8], .lbgt 0xFF80#16, 6),
    ([0x2F#8, 0xFF#8, 0x80#8], .lble 0xFF80#16, 5)] := by decide

theorem test_opcodes_page2_registers : rows .page2 [
    ([0x3F#8], .swi2, 20),
    ([0x83#8, 0x12#8, 0x34#8], .cmpd (.imm 0x1234#16), 5),
    ([0x8C#8, 0x12#8, 0x34#8], .cmpy (.imm 0x1234#16), 5),
    ([0x8E#8, 0x12#8, 0x34#8], .ldy (.imm 0x1234#16), 4),
    ([0x93#8, 0x10#8], .cmpd (.mem (.direct 0x10#8)), 7),
    ([0x9C#8, 0x10#8], .cmpy (.mem (.direct 0x10#8)), 7),
    ([0x9E#8, 0x10#8], .ldy (.mem (.direct 0x10#8)), 6),
    ([0x9F#8, 0x10#8], .sty (.direct 0x10#8), 6),
    ([0xA3#8, 0xA4#8], .cmpd (.mem (.indexed ⟨.y, .zero, false⟩)), 7),
    ([0xAC#8, 0xA4#8], .cmpy (.mem (.indexed ⟨.y, .zero, false⟩)), 7),
    ([0xAE#8, 0xA4#8], .ldy (.mem (.indexed ⟨.y, .zero, false⟩)), 6),
    ([0xAF#8, 0xA4#8], .sty (.indexed ⟨.y, .zero, false⟩), 6),
    ([0xB3#8, 0x20#8, 0x01#8], .cmpd (.mem (.extended 0x2001#16)), 8),
    ([0xBC#8, 0x20#8, 0x01#8], .cmpy (.mem (.extended 0x2001#16)), 8),
    ([0xBE#8, 0x20#8, 0x01#8], .ldy (.mem (.extended 0x2001#16)), 7)] := by decide

theorem test_opcodes_page2_stack_pointer : rows .page2 [
    ([0xBF#8, 0x20#8, 0x01#8], .sty (.extended 0x2001#16), 7),
    ([0xCE#8, 0x12#8, 0x34#8], .lds (.imm 0x1234#16), 4),
    ([0xDE#8, 0x10#8], .lds (.mem (.direct 0x10#8)), 6),
    ([0xDF#8, 0x10#8], .sts (.direct 0x10#8), 6),
    ([0xEE#8, 0xA4#8], .lds (.mem (.indexed ⟨.y, .zero, false⟩)), 6),
    ([0xEF#8, 0xA4#8], .sts (.indexed ⟨.y, .zero, false⟩), 6),
    ([0xFE#8, 0x20#8, 0x01#8], .lds (.mem (.extended 0x2001#16)), 7),
    ([0xFF#8, 0x20#8, 0x01#8], .sts (.extended 0x2001#16), 7),
    ([0x20#8], .page2Undefined 0x20#8, 2)] := by decide

theorem test_opcodes_page3_all : rows .page3 [
    ([0x3F#8], .swi3, 20),
    ([0x83#8, 0x12#8, 0x34#8], .cmpu (.imm 0x1234#16), 5),
    ([0x8C#8, 0x12#8, 0x34#8], .cmps (.imm 0x1234#16), 5),
    ([0x93#8, 0x10#8], .cmpu (.mem (.direct 0x10#8)), 7),
    ([0x9C#8, 0x10#8], .cmps (.mem (.direct 0x10#8)), 7),
    ([0xA3#8, 0xA4#8], .cmpu (.mem (.indexed ⟨.y, .zero, false⟩)), 7),
    ([0xAC#8, 0xA4#8], .cmps (.mem (.indexed ⟨.y, .zero, false⟩)), 7),
    ([0xB3#8, 0x20#8, 0x01#8], .cmpu (.mem (.extended 0x2001#16)), 8),
    ([0xBC#8, 0x20#8, 0x01#8], .cmps (.mem (.extended 0x2001#16)), 8),
    ([0x20#8], .page3Undefined 0x20#8, 2)] := by decide

/-! ### Indexed postbytes (R125 to R129) -/

theorem test_indexed_direct_forms : indexes [
    ([0x05#8], ⟨.x, .off5 5#5, false⟩), ([0x3F#8], ⟨.y, .off5 0x1F#5, false⟩), ([0x80#8], ⟨.x, .inc1, false⟩),
    ([0xC1#8], ⟨.u, .inc2, false⟩), ([0xA2#8], ⟨.y, .dec1, false⟩), ([0xE3#8], ⟨.s, .dec2, false⟩),
    ([0x84#8], ⟨.x, .zero, false⟩), ([0x85#8], ⟨.x, .accB, false⟩), ([0x86#8], ⟨.x, .accA, false⟩),
    ([0x88#8, 0x80#8], ⟨.x, .off8 0x80#8, false⟩), ([0x89#8, 0x40#8, 0x00#8], ⟨.x, .off16 0x4000#16, false⟩),
    ([0x8B#8], ⟨.x, .accD, false⟩), ([0x8C#8, 0x10#8], ⟨.x, .pcr8 0x10#8, false⟩),
    ([0x8D#8, 0x10#8, 0x00#8], ⟨.x, .pcr16 0x1000#16, false⟩)] := by decide

theorem test_indexed_indirect_forms : indexes [
    ([0xF1#8], ⟨.s, .inc2, true⟩), ([0xD3#8], ⟨.u, .dec2, true⟩), ([0xB4#8], ⟨.y, .zero, true⟩),
    ([0x95#8], ⟨.x, .accB, true⟩), ([0xF6#8], ⟨.s, .accA, true⟩), ([0xD8#8, 0x7F#8], ⟨.u, .off8 0x7F#8, true⟩),
    ([0xB9#8, 0x12#8, 0x34#8], ⟨.y, .off16 0x1234#16, true⟩), ([0x9B#8], ⟨.x, .accD, true⟩),
    ([0xFC#8, 0x01#8], ⟨.s, .pcr8 0x01#8, true⟩), ([0xDD#8, 0x12#8, 0x34#8], ⟨.u, .pcr16 0x1234#16, true⟩),
    ([0x9F#8, 0x50#8, 0x00#8], ⟨.x, .extInd 0x5000#16, true⟩),
    ([0xFF#8, 0x50#8, 0x00#8], ⟨.s, .extInd 0x5000#16, true⟩)] := by decide

/-- The state of 95_test_vectors.md section 4. -/
def vectorState : State :=
  pokeWord 0x5000#16 0x1234#16
    { start with
      x := 0x1000#16, y := 0x2000#16, u := 0x3000#16, s := 0x0400#16, a := 0x80#8, b := 0xFF#8,
      pc := 0x4000#16, nmiArmed := false }

/-- LDA through an indexed operand: the last read is at `ea`, the cycles are as the vector says. -/
def loads (bs : List Byte) (ea : Word) (n : Nat) (post : State → Bool) : Bool :=
  one .page0 (0xA6#8 :: bs) (poke ea 0x5A#8 vectorState) fun t =>
    t.a == 0x5A#8 && t.cycle == BitVec.ofNat 32 n && (bus t).getLast? == some (.read ea 0x5A#8) &&
      t.nmiArmed == false &&
    post t

theorem test_V80_to_V87 : ([
    loads [0x05#8] 0x1005#16 5 (fun t => t.x == 0x1000#16),
    loads [0x3F#8] 0x1FFF#16 5 (fun t => t.y == 0x2000#16),
    loads [0x80#8] 0x1000#16 6 (fun t => t.x == 0x1001#16),
    loads [0xC1#8] 0x3000#16 7 (fun t => t.u == 0x3002#16),
    loads [0xA2#8] 0x1FFF#16 6 (fun t => t.y == 0x1FFF#16),
    loads [0xE3#8] 0x03FE#16 7 (fun t => t.s == 0x03FE#16),
    loads [0x84#8] 0x1000#16 4 (fun t => t.x == 0x1000#16),
    loads [0x85#8] 0x0FFF#16 5 (fun t => t.x == 0x1000#16)] : List Bool).all id = true := by decide

theorem test_V88_to_V95 : ([
    loads [0x86#8] 0x0F80#16 5 (fun t => t.x == 0x1000#16),
    loads [0x88#8, 0x80#8] 0x0F80#16 5 (fun t => t.x == 0x1000#16),
    loads [0x89#8, 0x40#8, 0x00#8] 0x5000#16 8 (fun t => t.x == 0x1000#16),
    loads [0x8B#8] 0x90FF#16 8 (fun t => t.x == 0x1000#16),
    loads [0x8C#8, 0x10#8] 0x4013#16 5 (fun t => t.pc == 0x4003#16),
    loads [0x8D#8, 0x10#8, 0x00#8] 0x5004#16 9 (fun t => t.pc == 0x4004#16),
    loads [0x9F#8, 0x50#8, 0x00#8] 0x1234#16 9 (fun t => t.pc == 0x4004#16),
    one .page0 [0xA6#8, 0x94#8] (poke 0x6000#16 0x5A#8 (pokeWord 0x1000#16 0x6000#16 vectorState))
      (fun t => t.a == 0x5A#8 && t.cycle == 7#32)] : List Bool).all id = true := by decide

theorem test_V96 :
    refuses (.undefinedPostbyte 0x87#8) (step (placeInstr .page0 [0xA6#8, 0x87#8] vectorState)) = true := by decide

/-! ### Well-formedness: an ill-formed term for each check, refused -/

theorem test_wf_refuses_indexed :
    [Instr.leax ⟨.x, .off5 0#5, true⟩, .leay ⟨.y, .inc1, true⟩, .leas ⟨.s, .dec1, true⟩,
     .leau ⟨.u, .extInd 0x5000#16, false⟩].all (fun i => !i.wf) = true := by decide

theorem test_wf_refuses_operands :
    [Instr.neg (.indexed ⟨.x, .inc1, true⟩), .sta (.indexed ⟨.x, .dec1, true⟩), .lda (.mem (.indexed ⟨.x, .inc1,
      true⟩)),
     .ldx (.mem (.indexed ⟨.x, .extInd 0#16, false⟩)), .jsr (.indexed ⟨.x, .off5 1#5, true⟩)].all
      (fun i => !i.wf) = true := by decide

theorem test_wf_refuses_defined_bytes :
    definedPage2.all (fun b => !(Instr.page2Undefined b).wf) && definedPage3.all (fun b => !(Instr.page3Undefined b).wf)
      = true := by decide

/-- R116: 256 entries on page 0. -/
theorem test_page0_is_full : page0Map.length = 16 ∧ page0Map.all (fun r => r.length == 16) = true := by decide

/-- R114, R115: the rows of pages 2 and 3 are the bytes the rules list, each once. -/
theorem test_pages_as_listed :
    page2Rows.length = 38 ∧ page2Rows.all (fun r => definedPage2.contains r.1) = true ∧ definedPage2.Nodup ∧
    page3Rows.length = 9 ∧ page3Rows.all (fun r => definedPage3.contains r.1) = true ∧ definedPage3.Nodup := by decide

/-- Bytes that end too early are rejected by name. -/
theorem test_decode_truncated :
    [decode .page0 [], decode .page0 [0x86#8], decode .page0 [0x7F#8, 0x20#8], decode .page0 [0xA6#8],
     decode .page0 [0xA6#8, 0x9F#8, 0x50#8], decode .page2 [0xCE#8, 0x04#8]].all
      (fun r => match r with | .error .truncated => true | .error (.undefinedPostbyte _) | .ok _ => false) = true :=
        by decide

/-! ### Words numbered as the table numbers them -/

theorem test_table_words :
    decodeTableWord 8 0x40 = some .nega ∧ decodeTableWord 16 0x4286 = some (.lda (.imm 0x42#8)) ∧
    decodeTableWord 16 0x103F = some .swi2 ∧ decodeTableWord 16 0x1183 = some (.cmpu (.imm 0#16)) ∧
    decodeTableWord 8 0x10 = some .page2Prefix ∧ decodeTableWord 8 0xA6 = some (.lda (.mem (.indexed ⟨.x, .off5 0#5,
      false⟩))) := by
  decide

theorem test_withFetchWord_runs :
    next (fun t => t.a == 0x42#8) (step (State.reset.withFetchWord 16 0x4286)) = true ∧
    next (fun t => t.y == 0#16 && t.cc.getLsbD 2) (step (State.reset.withFetchWord 16 0x108E)) = true := by decide

/-! ### The examples of the rules -/

/-- R214, R215, R216, R217, R218, R219, R220, R221. -/
theorem test_rmw_memory_and_inherent_1 : ([
    both .page0 [0x00#8, 0x10#8] [] [(.n, true), (.z, false), (.v, false), (.c, true)] (poke 0x0010#16 0x01#8
      { start with dp := 0x00#8 }) (fun t => t.byteAt 0x0010#16 == 0xFF#8),
    both .page0 [0x40#8] [] [(.n, true), (.z, false), (.v, true), (.c, true)] { start with a := 0x80#8 }
      (fun t => t.a == 0x80#8),
    both .page0 [0x50#8] [] [(.n, false), (.z, true), (.v, false), (.c, false)] { start with b := 0x00#8 }
      (fun t => t.b == 0x00#8),
    both .page0 [0x63#8, 0x84#8] [] [(.n, true), (.z, false), (.v, false), (.c, true)] (poke 0x2000#16 0x0F#8
      { start with x := 0x2000#16 }) (fun t => t.byteAt 0x2000#16 == 0xF0#8),
    both .page0 [0x43#8] [] [(.n, false), (.z, true), (.v, false), (.c, true)] { start with a := 0xFF#8 }
      (fun t => t.a == 0x00#8),
    both .page0 [0x53#8] [] [(.n, true), (.z, false), (.v, false), (.c, true)] { start with b := 0x55#8 }
      (fun t => t.b == 0xAA#8),
    both .page0 [0x74#8, 0x12#8, 0x34#8] [] [(.n, false), (.z, false), (.c, true)] (poke 0x1234#16 0x81#8 start)
      (fun t => t.byteAt 0x1234#16 == 0x40#8),
    both .page0 [0x44#8] [] [(.n, false), (.z, true), (.c, true)] { start with a := 0x01#8 }
      (fun t => t.a == 0x00#8)] : List Bool).all id = true := by decide

/-- R222, R223, R224, R225, R226, R227, R228, R229. -/
theorem test_rmw_memory_and_inherent_2 : ([
    both .page0 [0x54#8] [] [(.n, false), (.z, false), (.c, false)] { start with b := 0xFE#8 } (fun t => t.b == 0x7F#8),
    both .page0 [0x06#8, 0x20#8] [(.c, true)] [(.n, true), (.z, false), (.c, false)] (poke 0x0020#16 0x02#8
      { start with dp := 0x00#8 }) (fun t => t.byteAt 0x0020#16 == 0x81#8),
    both .page0 [0x46#8] [(.c, false)] [(.n, false), (.z, true), (.c, true)] { start with a := 0x01#8 }
      (fun t => t.a == 0x00#8),
    both .page0 [0x56#8] [(.c, true)] [(.n, true), (.z, false), (.c, true)] { start with b := 0x01#8 }
      (fun t => t.b == 0x80#8),
    both .page0 [0x67#8, 0x84#8] [] [(.n, true), (.z, false), (.c, true)] (poke 0x3000#16 0x81#8
      { start with x := 0x3000#16 }) (fun t => t.byteAt 0x3000#16 == 0xC0#8),
    both .page0 [0x47#8] [] [(.n, false), (.z, false), (.c, true)] { start with a := 0x7F#8 } (fun t => t.a == 0x3F#8),
    both .page0 [0x57#8] [] [(.n, true), (.z, false), (.c, false)] { start with b := 0x80#8 } (fun t => t.b == 0xC0#8),
    both .page0 [0x08#8, 0x30#8] [] [(.n, true), (.z, false), (.v, true), (.c, false)] (poke 0x0030#16 0x40#8
      { start with dp := 0x00#8 }) (fun t => t.byteAt 0x0030#16 == 0x80#8)] : List Bool).all id = true := by decide

/-- R230, R231, R232, R233, R234, R235, R236, R237. -/
theorem test_rmw_memory_and_inherent_3 : ([
    both .page0 [0x48#8] [] [(.n, false), (.z, true), (.v, true), (.c, true)] { start with a := 0x80#8 }
      (fun t => t.a == 0x00#8),
    both .page0 [0x58#8] [] [(.n, true), (.z, false), (.v, false), (.c, true)] { start with b := 0xC0#8 }
      (fun t => t.b == 0x80#8),
    both .page0 [0x79#8, 0x40#8, 0x00#8] [(.c, true)] [(.n, true), (.z, false), (.v, true), (.c, false)] (poke
      0x4000#16 0x7F#8 start) (fun t => t.byteAt 0x4000#16 == 0xFF#8),
    both .page0 [0x49#8] [(.c, false)] [(.n, false), (.z, true), (.v, true), (.c, true)]
      { start with a := 0x80#8 } (fun t => t.a == 0x00#8),
    both .page0 [0x59#8] [(.c, true)] [(.n, false), (.z, false), (.v, false), (.c, false)]
      { start with b := 0x00#8 } (fun t => t.b == 0x01#8),
    both .page0 [0x0A#8, 0x40#8] [(.c, true)] [(.n, true), (.z, false), (.v, false), (.c, true)] (poke 0x0040#16
      0x00#8 { start with dp := 0x00#8 }) (fun t => t.byteAt 0x0040#16 == 0xFF#8),
    both .page0 [0x4A#8] [] [(.n, false), (.z, false), (.v, true)] { start with a := 0x80#8 } (fun t => t.a == 0x7F#8),
    both .page0 [0x5A#8] [] [(.n, false), (.z, true), (.v, false)] { start with b := 0x01#8 }
      (fun t => t.b == 0x00#8)] : List Bool).all id = true := by decide

/-- R238, R239, R240, R241, R242, R243, R244, R245. -/
theorem test_rmw_memory_and_inherent_4 : ([
    both .page0 [0x6C#8, 0x84#8] [(.c, false)] [(.n, false), (.z, true), (.v, false), (.c, false)] (poke 0x2000#16
      0xFF#8 { start with x := 0x2000#16 }) (fun t => t.byteAt 0x2000#16 == 0x00#8),
    both .page0 [0x4C#8] [] [(.n, true), (.z, false), (.v, true)] { start with a := 0x7F#8 } (fun t => t.a == 0x80#8),
    both .page0 [0x5C#8] [] [(.n, false), (.z, false), (.v, false)] { start with b := 0x00#8 } (fun t => t.b == 0x01#8),
    both .page0 [0x0D#8, 0x50#8] [] [(.n, true), (.z, false), (.v, false)] (poke 0x0050#16 0x80#8
      { start with dp := 0x00#8 }) (fun t => t.byteAt 0x0050#16 == 0x80#8),
    both .page0 [0x4D#8] [] [(.n, false), (.z, true), (.v, false)] { start with a := 0x00#8 } (fun t => t.a == 0x00#8),
    both .page0 [0x5D#8] [] [(.n, false), (.z, false), (.v, false)] { start with b := 0x7F#8 } (fun t => t.b == 0x7F#8),
    both .page0 [0x7F#8, 0x10#8, 0x00#8] [] [(.n, false), (.z, true), (.v, false), (.c, false)] (poke 0x1000#16 0x5A#8
      start) (fun t => t.byteAt 0x1000#16 == 0x00#8),
    both .page0 [0x4F#8] [] [(.n, false), (.z, true), (.v, false), (.c, false)] { start with a := 0x12#8 }
      (fun t => t.a == 0x00#8)] : List Bool).all id = true := by decide

/-- R246, R247, R248, R249. -/
theorem test_rmw_memory_and_inherent_5 : ([
    both .page0 [0x5F#8] [] [(.n, false), (.z, true), (.v, false), (.c, false)] { start with b := 0xFF#8 }
      (fun t => t.b == 0x00#8),
    both .page0 [0x41#8] [] [(.n, true), (.z, false), (.v, false), (.c, true)] { start with a := 0x01#8 }
      (fun t => t.a == 0xFF#8),
    both .page0 [0x01#8, 0x10#8] [] [(.n, true), (.z, false), (.v, false), (.c, true)] (poke 0x0010#16 0x01#8
      { start with dp := 0x00#8 }) (fun t => t.byteAt 0x0010#16 == 0xFF#8),
    both .page0 [0x51#8] [] [(.n, true), (.z, false), (.v, false), (.c, true)] { start with b := 0x01#8 }
      (fun t => t.b == 0xFF#8),
    both .page0 [0x42#8] [(.c, true)] [(.n, true), (.z, false), (.v, false), (.c, true)]
      { start with a := 0x0F#8 } (fun t => t.a == 0xF0#8),
    both .page0 [0x02#8, 0x10#8] [(.c, false)] [(.n, true), (.z, false), (.v, false), (.c, true)] (poke 0x0010#16
      0x0F#8 { start with dp := 0x00#8 }) (fun t => t.byteAt 0x0010#16 == 0xF1#8),
    both .page0 [0x52#8] [(.c, false)] [(.n, true), (.z, false), (.v, false), (.c, true)]
      { start with b := 0x0F#8 } (fun t => t.b == 0xF1#8),
    both .page0 [0x55#8] [] [(.c, true), (.n, false), (.z, false)] { start with b := 0x03#8 }
      (fun t => t.b == 0x01#8)] : List Bool).all id = true := by decide

/-- R249, R250, R251. -/
theorem test_rmw_memory_and_inherent_6 : ([
    both .page0 [0x65#8, 0x84#8] [] [(.c, true), (.n, false), (.z, false)] (poke 0x2000#16 0x03#8
      { start with x := 0x2000#16 }) (fun t => t.byteAt 0x2000#16 == 0x01#8),
    both .page0 [0x45#8] [] [(.c, true), (.n, false), (.z, false)] { start with a := 0x03#8 } (fun t => t.a == 0x01#8),
    both .page0 [0x4B#8] [] [(.v, true), (.n, false), (.z, false)] { start with a := 0x80#8 } (fun t => t.a == 0x7F#8),
    both .page0 [0x7B#8, 0x20#8, 0x00#8] [] [(.v, true), (.n, false), (.z, false)] (poke 0x2000#16 0x80#8 start)
      (fun t => t.byteAt 0x2000#16 == 0x7F#8),
    both .page0 [0x5B#8] [] [(.v, true), (.n, false), (.z, false)] { start with b := 0x80#8 } (fun t => t.b == 0x7F#8),
    both .page0 [0x5E#8] [] [(.z, true), (.n, false), (.v, false), (.c, false)] { start with b := 0x77#8 }
      (fun t => t.b == 0x00#8),
    both .page0 [0x4E#8] [] [(.z, true), (.n, false), (.v, false), (.c, false)] { start with a := 0x77#8 }
      (fun t => t.a == 0x00#8)] : List Bool).all id = true := by decide

/-- R270, R271, R272, R273, R274, R275, R276, R277. -/
theorem test_accumulator_8_1 : ([
    both .page0 [0x80#8, 0x01#8] [] [(.n, true), (.z, false), (.v, false), (.c, true)]
      { start with a := 0x00#8 } (fun t => t.a == 0xFF#8),
    both .page0 [0xC0#8, 0x01#8] [] [(.n, false), (.z, false), (.v, true), (.c, false)]
      { start with b := 0x80#8 } (fun t => t.b == 0x7F#8),
    both .page0 [0x81#8, 0x10#8] [] [(.n, false), (.z, true), (.v, false), (.c, false)]
      { start with a := 0x10#8 } (fun t => t.a == 0x10#8),
    both .page0 [0xC1#8, 0xFF#8] [] [(.n, false), (.z, false), (.v, false), (.c, true)]
      { start with b := 0x00#8 } (fun t => t.b == 0x00#8),
    both .page0 [0x82#8, 0x00#8] [(.c, true)] [(.n, true), (.z, false), (.v, false), (.c, true)]
      { start with a := 0x00#8 } (fun t => t.a == 0xFF#8),
    both .page0 [0xC2#8, 0x01#8] [(.c, true)] [(.n, false), (.z, true), (.v, false), (.c, false)]
      { start with b := 0x02#8 } (fun t => t.b == 0x00#8),
    both .page0 [0x84#8, 0x0F#8] [] [(.n, false), (.z, false), (.v, false)] { start with a := 0xF3#8 }
      (fun t => t.a == 0x03#8),
    both .page0 [0xC4#8, 0xF0#8] [] [(.n, false), (.z, true), (.v, false)] { start with b := 0x0F#8 }
      (fun t => t.b == 0x00#8)] : List Bool).all id = true := by decide

/-- R278, R279, R280, R281, R282, R283, R284, R285. -/
theorem test_accumulator_8_2 : ([
    both .page0 [0x85#8, 0x80#8] [] [(.n, true), (.z, false), (.v, false)] { start with a := 0x81#8 }
      (fun t => t.a == 0x81#8),
    both .page0 [0xC5#8, 0x01#8] [] [(.n, false), (.z, true), (.v, false)] { start with b := 0xFE#8 }
      (fun t => t.b == 0xFE#8),
    both .page0 [0x86#8, 0x00#8] [] [(.n, false), (.z, true), (.v, false)] start (fun t => t.a == 0x00#8),
    both .page0 [0xC6#8, 0x80#8] [] [(.n, true), (.z, false), (.v, false)] start (fun t => t.b == 0x80#8),
    both .page0 [0x97#8, 0x20#8] [] [(.n, false), (.z, true), (.v, false)]
      { start with dp := 0x00#8, a := 0x00#8 } (fun t => t.byteAt 0x0020#16 == 0x00#8),
    both .page0 [0xF7#8, 0x40#8, 0x00#8] [] [(.n, true), (.z, false), (.v, false)] { start with b := 0x90#8 }
      (fun t => t.byteAt 0x4000#16 == 0x90#8),
    both .page0 [0x88#8, 0xFF#8] [] [(.n, true), (.z, false), (.v, false)] { start with a := 0x0F#8 }
      (fun t => t.a == 0xF0#8),
    both .page0 [0xC8#8, 0xAA#8] [] [(.n, false), (.z, true), (.v, false)] { start with b := 0xAA#8 }
      (fun t => t.b == 0x00#8)] : List Bool).all id = true := by decide

/-- R286, R287, R288, R289, R290, R291, R292. -/
theorem test_accumulator_8_3 : ([
    both .page0 [0x89#8, 0x00#8] [(.c, true)] [(.h, true), (.n, false), (.z, true), (.v, false), (.c, true)]
      { start with a := 0xFF#8 } (fun t => t.a == 0x00#8),
    both .page0 [0xC9#8, 0x01#8] [(.c, true)] [(.h, true), (.n, true), (.z, false), (.v, true), (.c, false)]
      { start with b := 0x7E#8 } (fun t => t.b == 0x80#8),
    both .page0 [0x8A#8, 0x80#8] [] [(.n, true), (.z, false), (.v, false)] { start with a := 0x01#8 }
      (fun t => t.a == 0x81#8),
    both .page0 [0xCA#8, 0x00#8] [] [(.n, false), (.z, true), (.v, false)] { start with b := 0x00#8 }
      (fun t => t.b == 0x00#8),
    both .page0 [0x8B#8, 0x01#8] [] [(.h, true), (.n, true), (.z, false), (.v, true), (.c, false)]
      { start with a := 0x7F#8 } (fun t => t.a == 0x80#8),
    both .page0 [0xCB#8, 0x80#8] [] [(.h, false), (.n, false), (.z, true), (.v, true), (.c, true)]
      { start with b := 0x80#8 } (fun t => t.b == 0x00#8),
    one .page0 [0x87#8, 0x55#8] { start with a := 0x12#8, b := 0x34#8, cc := 0x04#8 }
      (fun t => t.cc == 0x08#8 && t.a == 0x12#8 && t.b == 0x34#8 &&
        t.pc == 0x2102#16)] : List Bool).all id = true := by decide

/-- R304, R305, R306, R307, R308, R309, R310, R311. -/
theorem test_register_16_1 : ([
    both .page0 [0xC3#8, 0x00#8, 0x01#8] [] [(.n, true), (.z, false), (.v, true), (.c, false)]
      { start with a := 0x7F#8, b := 0xFF#8 } (fun t => t.d == 0x8000#16),
    both .page0 [0x83#8, 0x00#8, 0x01#8] [] [(.n, true), (.z, false), (.v, false), (.c, true)]
      { start with a := 0x00#8, b := 0x00#8 } (fun t => t.d == 0xFFFF#16),
    both .page2 [0x83#8, 0x12#8, 0x34#8] [] [(.n, false), (.z, true), (.v, false), (.c, false)]
      { start with a := 0x12#8, b := 0x34#8 } (fun t => t.d == 0x1234#16),
    both .page0 [0x8C#8, 0x80#8, 0x00#8] [] [(.n, true), (.z, false), (.v, true), (.c, true)]
      { start with x := 0x7FFF#16 } (fun t => t.x == 0x7FFF#16),
    both .page2 [0x8C#8, 0x00#8, 0x00#8] [] [(.n, true), (.z, false), (.v, false), (.c, false)]
      { start with y := 0x8000#16 } (fun t => t.y == 0x8000#16),
    both .page3 [0x83#8, 0x00#8, 0x01#8] [] [(.n, true), (.z, false), (.v, false), (.c, true)]
      { start with u := 0x0000#16 } (fun t => t.u == 0x0000#16),
    both .page3 [0x8C#8, 0xFF#8, 0xFF#8] [] [(.n, false), (.z, true), (.v, false), (.c, false)]
      { start with s := 0xFFFF#16 } (fun t => t.s == 0xFFFF#16),
    both .page0 [0xCC#8, 0x80#8, 0x00#8] [] [(.n, true), (.z, false), (.v, false)] start
      (fun t => t.a == 0x80#8 && t.b == 0x00#8)] : List Bool).all id = true := by decide

/-- R312, R313, R314, R315, R316, R317, R318, R319. -/
theorem test_register_16_2 : ([
    both .page0 [0x8E#8, 0x00#8, 0x00#8] [] [(.n, false), (.z, true), (.v, false)] start (fun t => t.x == 0x0000#16),
    both .page2 [0xBE#8, 0x20#8, 0x00#8] [] [(.n, false), (.z, false), (.v, false)] (poke 0x2001#16 0x34#8 (poke
      0x2000#16 0x12#8 start)) (fun t => t.y == 0x1234#16),
    both .page0 [0xCE#8, 0x7F#8, 0xFF#8] [] [(.n, false), (.z, false), (.v, false)] start (fun t => t.u == 0x7FFF#16),
    both .page2 [0xCE#8, 0x04#8, 0x00#8] [] [(.n, false), (.z, false), (.v, false)] start
      (fun t => t.s == 0x0400#16 && t.nmiArmed == true),
    both .page0 [0xFD#8, 0x30#8, 0x00#8] [] [(.n, true), (.z, false), (.v, false)]
      { start with a := 0xAB#8, b := 0xCD#8 } (fun t => t.byteAt 0x3000#16 == 0xAB#8 && t.byteAt 0x3001#16 == 0xCD#8),
    both .page0 [0xAF#8, 0xA4#8] [] [(.n, false), (.z, true), (.v, false)]
      { start with y := 0x2000#16, x := 0x0000#16 }
        (fun t => t.byteAt 0x2000#16 == 0x00#8 && t.byteAt 0x2001#16 == 0x00#8),
    both .page2 [0x9F#8, 0x40#8] [] [(.n, true), (.z, false), (.v, false)]
      { start with dp := 0x00#8, y := 0x8001#16 }
        (fun t => t.byteAt 0x0040#16 == 0x80#8 && t.byteAt 0x0041#16 == 0x01#8),
    both .page0 [0xFF#8, 0x10#8, 0x00#8] [] [(.n, false), (.z, false), (.v, false)]
      { start with u := 0x1234#16 } (fun t => t.byteAt 0x1000#16 == 0x12#8 &&
        t.byteAt 0x1001#16 == 0x34#8)] : List Bool).all id = true := by decide

/-- R320, R321, R322, R323, R324, R325, R326. -/
theorem test_register_16_3 : ([
    both .page2 [0xEF#8, 0x84#8] [] [(.n, false), (.z, false), (.v, false)]
      { start with x := 0x5000#16, s := 0x03FE#16 }
        (fun t => t.byteAt 0x5000#16 == 0x03#8 && t.byteAt 0x5001#16 == 0xFE#8),
    one .page0 [0x8F#8, 0x11#8, 0x22#8] { start with x := 0xBEEF#16, cc := 0x00#8 }
      (fun t => t.cc == 0x08#8 && t.byteAt 0x2102#16 == 0xEF#8 && t.pc == 0x2103#16),
    one .page0 [0xCF#8, 0x11#8, 0x22#8] { start with u := 0xBEEF#16, cc := 0x00#8 }
      (fun t => t.cc == 0x08#8 && t.byteAt 0x2102#16 == 0xEF#8 && t.pc == 0x2103#16),
    both .page0 [0x30#8, 0x05#8] [] [(.z, false)] { start with x := 0x1000#16 } (fun t => t.x == 0x1005#16),
    both .page0 [0x31#8, 0x3F#8] [] [(.z, true)] { start with y := 0x0001#16 } (fun t => t.y == 0x0000#16),
    both .page0 [0x32#8, 0x7E#8] [] [] { start with s := 0x0400#16 } (fun t => t.s == 0x03FE#16 && t.nmiArmed == true),
    both .page0 [0x33#8, 0x41#8] [] [] { start with u := 0x2000#16 } (fun t => t.u == 0x2001#16),
    both .page0 [0x3A#8] [] [] { start with x := 0x10FF#16, b := 0x01#8 }
      (fun t => t.x == 0x1100#16)] : List Bool).all id = true := by decide

/-- R327, R328, R329. -/
theorem test_register_16_4 : ([
    both .page0 [0x3D#8] [] [(.z, false), (.c, true)] { start with a := 0x01#8, b := 0x80#8 }
      (fun t => t.d == 0x0080#16),
    both .page0 [0x1D#8] [] [(.n, true), (.z, false)] { start with b := 0x80#8 }
      (fun t => t.a == 0xFF#8 && t.b == 0x80#8),
    both .page0 [0x19#8] [(.h, false), (.c, false)] [(.n, false), (.z, true), (.v, false), (.c, true)]
      { start with a := 0x9A#8 } (fun t => t.a == 0x00#8)] : List Bool).all id = true := by decide

/-- R343, R344, R346, R347, R348, R349, R350, R351. -/
theorem test_transfer_stack_1 : ([
    both .page0 [0x1F#8, 0x12#8] [] [] { start with x := 0x1234#16 } (fun t => t.y == 0x1234#16 && t.x == 0x1234#16),
    both .page0 [0x1E#8, 0x89#8] [] [] { start with a := 0x12#8, b := 0x34#8 }
      (fun t => t.a == 0x34#8 && t.b == 0x12#8),
    both .page0 [0x34#8, 0x06#8] [] [] { start with s := 0x0400#16, a := 0x11#8, b := 0x22#8 }
      (fun t => t.s == 0x03FE#16 && t.byteAt 0x03FE#16 == 0x11#8 && t.byteAt 0x03FF#16 == 0x22#8),
    both .page0 [0x35#8, 0x06#8] [] [] (poke 0x03FF#16 0x22#8 (poke 0x03FE#16 0x11#8
      { start with s := 0x03FE#16 })) (fun t => t.a == 0x11#8 && t.b == 0x22#8 && t.s == 0x0400#16),
    both .page0 [0x36#8, 0x10#8] [] [] { start with u := 0x0800#16, x := 0xABCD#16 }
      (fun t => t.u == 0x07FE#16 && t.byteAt 0x07FE#16 == 0xAB#8 && t.byteAt 0x07FF#16 == 0xCD#8),
    both .page0 [0x37#8, 0x40#8] [] [] (poke 0x07FF#16 0x00#8 (poke 0x07FE#16 0x04#8
      { start with u := 0x07FE#16, nmiArmed := false }))
        (fun t => t.s == 0x0400#16 && t.u == 0x0800#16 && t.nmiArmed == true),
    one .page0 [0x1C#8, 0xEF#8] { start with cc := 0xD0#8 } (fun t => t.cc == 0xC0#8),
    one .page0 [0x1A#8, 0x50#8] { start with cc := 0x00#8 }
      (fun t => t.cc == 0x50#8)] : List Bool).all id = true := by decide

/-- R352, R353, R354, R355. -/
theorem test_transfer_stack_2 : ([
    both .page0 [0x12#8] [] [] start (fun t => t.pc == 0x2101#16),
    both .page0 [0x1B#8] [] [] start (fun t => t.pc == 0x2101#16),
    one .page0 [0x18#8] { start with cc := 0x18#8 } (fun t => t.cc == 0x20#8),
    one .page0 [0x38#8, 0x0F#8] { start with cc := 0xFF#8 }
      (fun t => t.cc == 0x0F#8)] : List Bool).all id = true := by decide

/-! ### Bus order of read-modify-write, test and clear -/

theorem test_V36 : both .page0 [0x0C#8, 0x10#8] [] [(.n, true), (.z, false), (.v, true)]
    (poke 0x2010#16 0x7F#8 { start with dp := 0x20#8, pc := 0x1000#16 }) (fun t => bus t ==
      [.read 0x1000#16 0x0C#8, .read 0x1001#16 0x10#8, .read 0xFFFF#16 0#8, .read 0x2010#16 0x7F#8,
       .read 0xFFFF#16 0#8, .write 0x2010#16 0x80#8]) = true := by decide

theorem test_V37 : both .page0 [0x7D#8, 0x20#8, 0x00#8] [] [(.n, false), (.z, true), (.v, false)]
    { start with pc := 0x1000#16 } (fun t => bus t ==
      [.read 0x1000#16 0x7D#8, .read 0x1001#16 0x20#8, .read 0x1002#16 0x00#8, .read 0xFFFF#16 0#8,
       .read 0x2000#16 0#8, .read 0xFFFF#16 0#8, .read 0xFFFF#16 0#8]) = true := by decide

theorem test_V38 : one .page0 [0x7F#8, 0x20#8, 0x00#8] (poke 0x2000#16 0x5A#8 { start with pc := 0x1000#16 })
    (fun t => t.cycle == 7#32 && (bus t).getD 4 (.read 0#16 0#8) == .read 0x2000#16 0x5A#8 &&
      (bus t).getD 6 (.read 0#16 0#8) == .write 0x2000#16 0x00#8) = true := by decide

/-- P2: the bus order of `STA ,Y+`. -/
theorem test_P2_store_order : one .page0 [0xA7#8, 0xA0#8] { start with pc := 0x100B#16, y := 0x3000#16, a := 0xAA#8 }
    (fun t => bus t == [.read 0x100B#16 0xA7#8, .read 0x100C#16 0xA0#8, .read 0xFFFF#16 0#8, .read 0xFFFF#16 0#8,
      .read 0xFFFF#16 0#8, .write 0x3000#16 0xAA#8] && t.y == 0x3001#16) = true := by decide

/-! ### 16-bit vectors -/

theorem test_V50_to_V56 : ([
    both .page0 [0xC3#8, 0x00#8, 0x01#8] [] [(.n, false), (.z, true), (.v, false), (.c, true)]
      { start with a := 0xFF#8, b := 0xFF#8 } (fun t => t.d == 0x0000#16),
    both .page0 [0x83#8, 0x00#8, 0x01#8] [] [(.n, false), (.z, false), (.v, true), (.c, false)]
      { start with a := 0x80#8 } (fun t => t.d == 0x7FFF#16),
    both .page0 [0x8C#8, 0x12#8, 0x34#8] [] [(.n, false), (.z, true), (.v, false), (.c, false)]
      { start with x := 0x1234#16 } (fun t => t.x == 0x1234#16),
    both .page2 [0x83#8, 0x80#8, 0x00#8] [] [(.n, true), (.z, false), (.v, true), (.c, true)]
      { start with a := 0x7F#8, b := 0xFF#8 } (fun t => t.d == 0x7FFF#16)] : List Bool).all id = true := by decide

theorem test_V60_to_V70 : ([
    both .page0 [0x3D#8] [] [(.z, false), (.c, false)] { start with a := 0xFF#8, b := 0xFF#8 }
      (fun t => t.d == 0xFE01#16),
    both .page0 [0x3D#8] [] [(.z, true), (.c, false)] { start with b := 0x37#8 } (fun t => t.d == 0x0000#16),
    both .page0 [0x1D#8] [] [(.n, false), (.z, false)] { start with b := 0x7F#8 } (fun t => t.d == 0x007F#16),
    both .page0 [0x19#8] [(.h, false), (.c, false)] [(.n, false), (.z, false), (.v, false), (.c, false)]
      { start with a := 0x0F#8 } (fun t => t.a == 0x15#8),
    both .page0 [0x19#8] [(.h, true), (.c, true)] [(.n, false), (.z, false), (.v, false), (.c, true)]
      { start with a := 0x12#8 } (fun t => t.a == 0x78#8),
    both .page0 [0x3A#8] [] [] { start with x := 0xFFFF#16, b := 0x02#8 } (fun t => t.x == 0x0001#16),
    both .page0 [0x33#8, 0xC3#8] [] [] { start with u := 0x1000#16 } (fun t => t.u == 0x0FFE#16 && t.cycle == 7#32),
    both .page0 [0x32#8, 0xE8#8, 0x10#8] [] [] { start with s := 0x0400#16, nmiArmed := false }
      (fun t => t.s == 0x0410#16 && t.nmiArmed)] : List Bool).all id = true := by decide

/-! ### Branches, jumps and calls (R361 to R399) -/

/-- Taken with the CC of the rule's example, with its cycles, and, with `other`, not. -/
def branches (pg : Page) (bs : List Byte) (cc other : Byte) (taken untaken : Word) (n m : Nat) : Bool :=
  one pg bs { start with pc := 0x1000#16, cc := cc }
    (fun t => t.pc == taken && t.cc == cc && t.cycle == BitVec.ofNat 32 n) &&
  one pg bs { start with pc := 0x1000#16, cc := other }
    (fun t => t.pc == untaken && t.cc == other && t.cycle == BitVec.ofNat 32 m)

def short (op cc other : Byte) : Bool := branches .page0 [op, 0x02#8] cc other 0x1004#16 0x1002#16 3 3

def long (op cc other : Byte) : Bool := branches .page2 [op, 0x01#8, 0x00#8] cc other 0x1104#16 0x1004#16 5 4

theorem test_short_branches : ([
    short 0x22#8 0x00#8 0x01#8, short 0x23#8 0x04#8 0x00#8, short 0x24#8 0x00#8 0x01#8, short 0x25#8 0x01#8 0x00#8,
    short 0x26#8 0x00#8 0x04#8, short 0x27#8 0x04#8 0x00#8, short 0x28#8 0x00#8 0x02#8, short 0x29#8 0x02#8 0x00#8,
    short 0x2A#8 0x00#8 0x08#8, short 0x2B#8 0x08#8 0x00#8, short 0x2C#8 0x0A#8 0x08#8, short 0x2D#8 0x08#8 0x0A#8,
    short 0x2E#8 0x00#8 0x04#8, short 0x2F#8 0x04#8 0x00#8] : List Bool).all id = true := by decide

theorem test_long_branches : ([
    long 0x22#8 0x00#8 0x01#8, long 0x23#8 0x04#8 0x00#8, long 0x24#8 0x00#8 0x01#8, long 0x25#8 0x01#8 0x00#8,
    long 0x26#8 0x00#8 0x04#8, long 0x27#8 0x04#8 0x00#8, long 0x28#8 0x00#8 0x02#8, long 0x29#8 0x02#8 0x00#8,
    long 0x2A#8 0x00#8 0x08#8, long 0x2B#8 0x08#8 0x00#8, long 0x2C#8 0x0A#8 0x08#8, long 0x2D#8 0x08#8 0x0A#8,
    long 0x2E#8 0x00#8 0x04#8, long 0x2F#8 0x04#8 0x00#8] : List Bool).all id = true := by decide

/-- R362, R363, R381, R378; V107, V108, V110, V111, V113. -/
theorem test_branch_corners : ([
    branches .page0 [0x20#8, 0x02#8] 0x00#8 0xFF#8 0x1004#16 0x1004#16 3 3,
    branches .page0 [0x21#8, 0x02#8] 0x00#8 0xFF#8 0x1002#16 0x1002#16 3 3,
    branches .page2 [0x21#8, 0x01#8, 0x00#8] 0x00#8 0xFF#8 0x1004#16 0x1004#16 4 4,
    branches .page0 [0x16#8, 0x10#8, 0x00#8] 0x00#8 0xFF#8 0x2003#16 0x2003#16 5 5,
    branches .page0 [0x2F#8, 0x10#8] 0x02#8 0x00#8 0x1012#16 0x1002#16 3 3,
    branches .page0 [0x20#8, 0x80#8] 0x00#8 0xFF#8 0x0F82#16 0x0F82#16 3 3,
    branches .page2 [0x27#8, 0xFF#8, 0xFC#8] 0x04#8 0x00#8 0x1000#16 0x1004#16 5 4,
    one .page0 [0x20#8, 0x7F#8] { start with pc := 0xFFF0#16 }
      (fun t => t.pc == 0x0071#16)] : List Bool).all id = true := by
  decide

/-- R379, R396 to R399; V114. -/
theorem test_calls : ([
    both .page0 [0x17#8, 0x01#8, 0x00#8] [] [] { start with pc := 0x1000#16, s := 0x0400#16 }
      (fun t => t.pc == 0x1103#16 && t.s == 0x03FE#16 && t.wordAt 0x03FE#16 == 0x1003#16 && t.cycle == 9#32),
    both .page0 [0x8D#8, 0x10#8] [] [] { start with pc := 0x1000#16, s := 0x0400#16 }
      (fun t => t.pc == 0x1012#16 && t.s == 0x03FE#16 && t.wordAt 0x03FE#16 == 0x1002#16 && t.cycle == 7#32),
    both .page0 [0x7E#8, 0xC0#8, 0x00#8] [] [] start (fun t => t.pc == 0xC000#16),
    both .page0 [0xBD#8, 0x20#8, 0x00#8] [] [] { start with pc := 0x1000#16, s := 0x0400#16 }
      (fun t => t.pc == 0x2000#16 && t.s == 0x03FE#16 && t.wordAt 0x03FE#16 == 0x1003#16),
    both .page0 [0xAD#8, 0x84#8] [] [] { start with pc := 0x1000#16, x := 0x2000#16, s := 0x0400#16 }
      (fun t => t.pc == 0x2000#16 && t.wordAt 0x03FE#16 == 0x1002#16 && t.cycle == 7#32),
    both .page0 [0x39#8] [] [] (pokeWord 0x03FE#16 0x1003#16 { start with s := 0x03FE#16 })
      (fun t => t.pc == 0x1003#16 && t.s == 0x0400#16 && t.cycle == 5#32)] : List Bool).all id = true := by decide

/-! ### Transfers and stacks (V5, V115 to V123) -/

theorem test_transfers : ([
    one .page0 [0x1F#8, 0x8A#8] { start with a := 0xFF#8 } (fun t => t.cc == 0xFF#8 && t.cycle == 6#32),
    one .page0 [0x1F#8, 0xA9#8] { start with cc := 0xFF#8 } (fun t => t.b == 0xFF#8),
    both .page0 [0x1E#8, 0x01#8] [] [] { start with a := 0x12#8, b := 0x34#8, x := 0xABCD#16 }
      (fun t => t.d == 0xABCD#16 && t.x == 0x1234#16 && t.cycle == 8#32),
    both .page0 [0x1F#8, 0x81#8] [] [] { start with a := 0x12#8 } (fun t => t.x == 0xFF12#16),
    both .page0 [0x1F#8, 0x18#8] [] [] { start with x := 0x3456#16 } (fun t => t.a == 0x56#8),
    both .page0 [0x1F#8, 0x14#8] [] [] { start with x := 0x0400#16, nmiArmed := false }
      (fun t => t.s == 0x0400#16 && t.nmiArmed)] : List Bool).all id = true := by decide

/-- V117 and the other refusals of R7, with every parameter as R7 decides. -/
theorem test_decided_parameters : ([
    refuses .irregularTfr (step (placeInstr .page0 [0x1F#8, 0x81#8] { start with params := Config.decidedParams })),
    refuses .irregularExg (step (placeInstr .page0 [0x1E#8, 0x18#8] { start with params := Config.decidedParams })),
    refuses .illegalUncertain (step (placeInstr .page0 [0x38#8, 0x0F#8] { start with params := Config.decidedParams })),
    refuses .illegalUncertain (step (placeInstr .page0 [0x8F#8] { start with params := Config.decidedParams })),
    refuses .illegalUncertain (step (placeInstr .page0 [0xCF#8] { start with params := Config.decidedParams })),
    one .page2 [0x00#8] { start with params := Config.decidedParams } (fun t => t.phase == .hcf),
    refuses .page23Undefined (step (placeInstr .page3 [0x00#8]
      { start with params := { Config.decidedParams with page23Undefined := .refuse } }))] : List Bool).all id = true
        := by
  decide

/-- V5: the round trip through PSHS and PULS. -/
theorem test_V5 :
    let s := { start with
        pc := 0x1000#16, s := 0x0400#16, a := 0x01#8, b := 0x02#8, dp := 0x03#8, x := 0x0405#16,
        y := 0x0607#16, u := 0x0809#16, cc := 0x50#8 }
    one .page0 [0x34#8, 0x7F#8] s (fun t => t.s == 0x03F6#16 && t.cycle == 15#32 &&
      (List.range 10).map (fun k => t.byteAt (0x03F6#16 + BitVec.ofNat 16 k)) ==
        [0x50#8, 0x01#8, 0x02#8, 0x03#8, 0x04#8, 0x05#8, 0x06#8, 0x07#8, 0x08#8, 0x09#8] &&
      one .page0 [0x35#8, 0x7F#8] { t with a := 0#8, b := 0#8, dp := 0#8, x := 0#16, y := 0#16, u := 0#16 }
        (fun v => v.s == 0x0400#16 && v.a == s.a && v.b == s.b && v.dp == s.dp && v.x == s.x && v.y == s.y &&
          v.u == s.u && v.cc == s.cc && v.cycle == 30#32)) = true := by decide

theorem test_V119_to_V122 : ([
    one .page0 [0x34#8, 0x80#8] { start with pc := 0x1000#16, s := 0x0400#16 }
      (fun t => t.s == 0x03FE#16 && t.wordAt 0x03FE#16 == 0x1002#16 && t.cycle == 7#32),
    one .page0 [0x35#8, 0x80#8] (pokeWord 0x03FE#16 0x1002#16 { start with s := 0x03FE#16 })
      (fun t => t.pc == 0x1002#16 && t.s == 0x0400#16 && t.cycle == 7#32),
    one .page0 [0x34#8, 0x00#8] { start with s := 0x0400#16 } (fun t => t.s == 0x0400#16 && t.cycle == 5#32),
    one .page0 [0x35#8, 0x00#8] { start with s := 0x0400#16 } (fun t => t.s == 0x0400#16 && t.cycle == 5#32),
    one .page0 [0x37#8, 0x40#8] (pokeWord 0x0800#16 0x0200#16 { start with u := 0x0800#16, nmiArmed := false })
      (fun t => t.s == 0x0200#16 && t.u == 0x0802#16 && t.nmiArmed && t.cycle == 7#32),
    one .page0 [0x1C#8, 0xAF#8] { start with cc := 0xFF#8 } (fun t => t.cc == 0xAF#8 && t.cycle == 3#32),
    one .page0 [0x18#8] { start with cc := 0x9C#8 } (fun t => t.cc == 0x20#8 && t.cycle == 3#32)] : List Bool).all id
      = true := by decide

/-! ### Interrupts, waits and reset -/

/-- R400 to R402, R406: the entry and the frame. -/
def swi (pg : Page) (op : Byte) (vector pc handler : Word) (cc : Byte) : Bool :=
  one pg [op] (pokeWord vector handler { start with pc := 0x1000#16, s := 0x0400#16 }) fun t =>
    t.s == 0x03F4#16 && t.byteAt 0x03F4#16 == 0x80#8 && t.wordAt 0x03FE#16 == pc && t.cc == cc && t.pc == handler &&
    t.phase == .labelA && t.cycle == 19#32

theorem test_software_interrupts : ([
    swi .page0 0x3F#8 0xFFFA#16 0x1001#16 0xE000#16 0xD0#8, swi .page2 0x3F#8 0xFFF4#16 0x1002#16 0xE100#16 0x80#8,
    swi .page3 0x3F#8 0xFFF2#16 0x1002#16 0xE100#16 0x80#8, swi .page0 0x3E#8 0xFFFE#16 0x1001#16 0xC000#16 0xD0#8]
      : List Bool).all id = true := by decide

/-- R403 after R400's example. -/
theorem test_rti : one .page0 [0x3F#8] (pokeWord 0xFFFA#16 0xE000#16 { start with pc := 0x1000#16, s := 0x0400#16 })
    (fun t => one .page0 [0x3B#8] t (fun u =>
      u.cc == 0x80#8 && u.pc == 0x1001#16 && u.s == 0x0400#16 && u.cycle == 34#32)) = true := by decide

/-- V130: IRQ entry from LABEL_B, its bus order and its 19 cycles. -/
theorem test_V130 :
    let s := pokeWord 0xFFF8#16 0xE000#16 { start with
        phase := .labelB, irq := ⟨true, 0#32⟩, cycle := 2#32,
        pc := 0x1000#16, s := 0x0400#16, u := 0x0102#16, y := 0x0304#16, x := 0x0506#16, 
        dp := 0x07#8, b := 0x08#8, a := 0x09#8 }
    let t := steps 2 s
    bus t = [.read 0x1000#16 0#8, .read 0x1000#16 0#8, .read 0xFFFF#16 0#8, .write 0x03FF#16 0x00#8,
      .write 0x03FE#16 0x10#8, .write 0x03FD#16 0x02#8, .write 0x03FC#16 0x01#8, .write 0x03FB#16 0x04#8,
      .write 0x03FA#16 0x03#8, .write 0x03F9#16 0x06#8, .write 0x03F8#16 0x05#8, .write 0x03F7#16 0x07#8,
      .write 0x03F6#16 0x08#8, .write 0x03F5#16 0x09#8, .write 0x03F4#16 0x80#8, .read 0xFFFF#16 0#8,
      .read 0xFFF8#16 0xE0#8, .read 0xFFF9#16 0x00#8, .read 0xFFFF#16 0#8] ∧
    t.cycle = 21#32 ∧ t.cc = 0x90#8 ∧ t.s = 0x03F4#16 ∧ t.pc = 0xE000#16 ∧ t.phase = .labelA := by decide

/-- V131: asserted one cycle ago, not recognised. -/
theorem test_V131 :
    (go { start with phase := .labelB, irq := ⟨true, 9#32⟩, cycle := 10#32 }).phase = .nextInstruction ∧
    (go { start with phase := .labelB, irq := ⟨true, 8#32⟩, cycle := 10#32 }).phase = .dispatchIrq := by decide

/-- V132: FIRQ entry in 10 cycles, and its RTI in 6. -/
theorem test_V132 :
    let t := steps 2 (pokeWord 0xFFF6#16 0xE000#16 { start with
        phase := .labelB, firq := ⟨true, 0#32⟩, cycle := 2#32,
        pc := 0x1000#16, s := 0x0400#16, cc := 0x80#8 })
    t.cycle = 12#32 ∧ t.byteAt 0x03FD#16 = 0x00#8 ∧ t.wordAt 0x03FE#16 = 0x1000#16 ∧ t.s = 0x03FD#16 ∧ t.cc = 0x50#8 ∧
    t.pc = 0xE000#16 ∧
    one .page0 [0x3B#8] t (fun u => u.cycle == 18#32 && u.pc == 0x1000#16 && u.s == 0x0400#16 &&
      u.cc == 0x00#8) = true := by
  decide

/-- V133: NMI before FIRQ before IRQ. -/
theorem test_V133 :
    let s := pokeWord 0xFFFC#16 0xD000#16 { start with
        phase := .labelB, nmi := ⟨true, 0#32⟩, nmiRequest := true,
        firq := ⟨true, 0#32⟩, irq := ⟨true, 0#32⟩, cycle := 2#32, s := 0x0400#16 }
    let t := steps 2 s
    t.pc = 0xD000#16 ∧ t.s = 0x03F4#16 ∧ t.cc = 0xD0#8 ∧ t.nmiRequest = false ∧ t.recognised .firq = false ∧
    t.recognised .irq = false := by decide

/-- V134: CWAI, one poll with no line, and the FIRQ that ends it without a push. -/
theorem test_V134 :
    let t := go (placeInstr .page0 [0x3C#8, 0xBF#8]
      (pokeWord 0xFFF6#16 0xE000#16 { start with pc := 0x1000#16, s := 0x0400#16, cc := 0x50#8 }))
    let p := steps 2 t
    let u := go { p with firq := ⟨true, 15#32⟩ }
    t.cc = 0x90#8 ∧ t.s = 0x03F4#16 ∧ t.byteAt 0x03F4#16 = 0x90#8 ∧ t.phase = .dispatchIrq ∧ t.viaCwai = true ∧
    t.cycle = 16#32 ∧ p.cycle = 17#32 ∧ p.phase = .dispatchIrq ∧
    u.cycle = 21#32 ∧ u.cc = 0xD0#8 ∧ u.s = 0x03F4#16 ∧ u.pc = 0xE000#16 ∧ u.viaCwai = false ∧ u.phase = .labelA ∧
    one .page0 [0x3B#8] u (fun v => v.pc == 0x1002#16 && v.cycle == 36#32) = true := by decide

/-- V135 and R405: SYNC with a masked line, under both values of `SYNC_WAKE_ON_MASKED`. -/
theorem test_V135 :
    let s := { start with phase := .sync, cc := 0x10#8, irq := ⟨true, 0#32⟩, cycle := 2#32 }
    (steps 6 s).phase = .sync ∧ (steps 6 s).cycle = 5#32 ∧
    (steps 2 { s with params := { s.params with syncWakeOnMasked := true } }).phase = .nextInstruction := by decide

/-- V8: lockup. -/
theorem test_V8 :
    let t := go (placeInstr .page0 [0x15#8] { start with pc := 0x1000#16 })
    t.phase = .hcf ∧ t.pc = 0x1001#16 ∧ (steps 5 (setLine .nmi true t)).phase = .hcf ∧
    (steps 5 (setLine .nmi true t)).pc = 0x1001#16 ∧ (steps 5 (setLine .nmi true t)).cycle = t.cycle + 5#32 := by decide

/-- V136: HALT at LABEL_A. -/
theorem test_V136 :
    let s := { start with phase := .labelA, halt := true }
    (steps 5 s).cycle = 5#32 ∧ (steps 5 s).phase = .labelA ∧ (go { steps 5 s with halt := false }).phase = .labelB := by
  decide

/-- V137: from reset to the fetch, 4 cycles. -/
theorem test_V137 :
    let s := pokeWord 0xFFFE#16 0xC000#16 { start with phase := .hcf, dp := 0x12#8, cc := 0#8 }
    let t := steps 4 (hostReset s)
    t.phase = .nextInstruction ∧ t.pc = 0xC000#16 ∧ t.cycle = 4#32 ∧ t.dp = 0#8 ∧ t.nmiArmed = false ∧
    t.cc &&& 0x50#8 = 0x50#8 ∧
    bus t = [.read 0xFFFF#16 0#8, .read 0xFFFE#16 0xC0#8, .read 0xFFFF#16 0#8, .read 0xFFFF#16 0#8] := by decide

/-- V138: a line stays asserted across reset. -/
theorem test_V138 :
    (hostReset { start with irq := ⟨true, 7#32⟩ }).irq = ⟨true, 7#32⟩ ∧
    (hostReset { start with irq := ⟨true, 7#32⟩, cycle := 99#32 }).recognised .irq = false := by decide

/-- V6: an edge while NMI is disarmed is lost; after LDS an edge is latched. -/
theorem test_V6 :
    let s := setLine .nmi true { start with nmiArmed := false, cycle := 9#32 }
    s.nmiRequest = false ∧ s.nmi = ⟨true, 9#32⟩ ∧
    one .page2 [0xCE#8, 0x04#8, 0x00#8] s (fun t => t.nmiArmed && !t.nmiRequest &&
      (setLine .nmi true (setLine .nmi false t)).nmiRequest) = true := by decide

/-! ### The event scheduler -/

/-- An event that is not queued. -/
def ev (t : Tick) (cb : CallbackId) : Event := ⟨t, cb, false, none⟩

/-- V2: deadlines 100, 50, 75 fire in the order 50, 75, 100. -/
theorem test_V2 :
    let s := { start with cycle := 1#32, sched := ⟨[(0, ev 100#32 0), (1, ev 50#32 1), (2, ev 75#32 2)], [], []⟩ }
    let q := [0, 1, 2].foldl (fun s e => innerMove s (.queue .machine e)) s
    let t := runQueue .machine { q with cycle := 101#32 }
    q.sched.machine = [1, 2, 0] ∧ t.sched.machine = [] ∧
    t.trace = [.callback 0 0, .callback 2 2, .callback 1 1] ∧
    t.sched.events.all (fun p => !p.2.queued && p.2.list == none) = true := by decide

/-- V139: equal deadlines keep their order. -/
theorem test_V139 :
    let s := { start with cycle := 1#32, sched := ⟨[(0, ev 50#32 0), (1, ev 50#32 1), (2, ev 50#32 2), (3, ev 50#32
      3)], [], []⟩ }
    let q := [0, 1, 2].foldl (fun s e => innerMove s (.queue .ui e)) s
    let t := innerMove (hostDispatch .ui q) (.queue .ui 3)
    q.sched.ui = [0, 1, 2] ∧ t.trace = [.callback 0 0] ∧ t.sched.ui = [1, 2, 3] := by decide

/-- V140: the tick counter wraps. -/
theorem test_V140 :
    let s := { start with cycle := 0xFFFFFFF0#32, sched := ⟨[(0, ev 0x10#32 0), (1, ev 0xFFFFFFF8#32 1)], [], []⟩ }
    let q := innerMove (innerMove s (.queue .machine 0)) (.queue .machine 1)
    q.sched.machine = [1, 0] ∧ q.sched.due 0xFFFFFFF7#32 .machine = false ∧ q.sched.due 0xFFFFFFF8#32 .machine = true ∧
    (hostDispatch .machine q).sched.due 0x0000000F#32 .machine = false ∧
    (hostDispatch .machine q).sched.due 0x00000010#32 .machine = true := by decide

/-- V141, R550: the faults and the no-ops. -/
theorem test_V141 :
    let s := { start with sched := ⟨[(0, ev 50#32 0)], [], []⟩ }
    let q := innerMove s (.queue .ui 0)
    faults .doubleQueue (hostMove (.queue .machine 0) q) && faults .freeWhileQueued (hostMove (.free 0) q) &&
    faults .deadlineChangedWhileQueued (hostMove (.setDeadline 0 9#32) q) &&
    faults .noSuchEvent (hostMove (.queue .ui 7) q) && faults .initWhileQueued (hostMove (.init 0 0) q) &&
    next (fun t => t == s) (hostMove (.dequeue 0) q) && next (fun t => t == s) (hostMove (.dequeue 0) s) &&
    next (fun t => t == s) (hostMove (.dispatchNext .ui) s) = true := by decide

/-- V142: a callback that queues its event again: the moves of the script are its body. -/
theorem test_V142 :
    let again : Tick → List HostMove := fun t => [.setDeadline 0 t, .queue .machine 0]
    let s := { start with
        cycle := 1250#32, sched := ⟨[(0, ⟨1000#32, 5, true, some .machine⟩)], [], [0]⟩,
        script := [again 1100#32, again 1200#32, again 1300#32] }
    let t := runQueue .machine s
    t.trace = [.callback 0 5, .callback 0 5, .callback 0 5] ∧ t.sched.machine = [0] ∧
    t.sched.deadline 0 = 1300#32 ∧ t.hostFault = none := by decide

/-- R560: a line asserted inside a bus cycle of an instruction is seen at the next LABEL_B only if it is old enough. -/
theorem test_line_inside_callout :
    let s := { placeInstr .page0 [0x12#8] { start with cycle := 10#32 } with script := [[.setLine .irq true]] }
    (go s).irq = ⟨true, 10#32⟩ ∧ (go s).cycle = 12#32 ∧ (go s).recognised .irq = true ∧ (go s).phase = .labelA := by
      decide


/-- R317 to R320, R302, R129, R611: a store of the register its own operand steps: `STX ,X++`, `STY ,-Y`, `STU ,U+` and
`STS ,--S` set the flags from the old value and store the new one. -/
theorem test_store_through_itself : ([
    both .page0 [0xAF#8, 0x81#8] [] [(.n, false), (.z, false), (.v, false)] { start with x := 0x7FFF#16 }
      (fun t => t.x == 0x8001#16 && t.wordAt 0x7FFF#16 == 0x8001#16),
    both .page2 [0xAF#8, 0xA2#8] [] [(.n, true), (.z, false), (.v, false)] { start with y := 0x8000#16 }
      (fun t => t.y == 0x7FFF#16 && t.wordAt 0x7FFF#16 == 0x7FFF#16),
    both .page0 [0xEF#8, 0xC0#8] [] [(.n, false), (.z, true), (.v, false)] { start with u := 0x0000#16 }
      (fun t => t.u == 0x0001#16 && t.wordAt 0x0000#16 == 0x0001#16),
    both .page2 [0xEF#8, 0xE3#8] [] [(.n, false), (.z, false), (.v, false)] { start with s := 0x0001#16 }
      (fun t => t.s == 0xFFFF#16 && t.wordAt 0xFFFF#16 == 0xFFFF#16)] : List Bool).all id = true := by decide

/-! ### States and operands that meet the hypotheses of the statements -/

theorem start_quiet : start.Quiet := ⟨rfl, rfl⟩

/-- Memory operands at the edges of their forms. -/
def operands : List MemOp :=
  [.direct 0x00#8, .direct 0xFF#8, .extended 0xFFFF#16, .indexed ⟨.x, .off5 0x10#5, false⟩, .indexed ⟨.s, .inc2, true⟩,
   .indexed ⟨.u, .accD, true⟩, .indexed ⟨.y, .pcr16 0xFFFF#16, false⟩, .indexed ⟨.x, .extInd 0xFFFF#16, true⟩]

/-- `start` meets the hypotheses, and each instruction listed completes there. -/
def complete (l : List Instr) : Bool := l.all (completes start)

theorem witness_DecodeOfEncode :
    (operands.all fun m => (Instr.neg m).wf && (Instr.lda (.mem m)).wf && (Instr.ldx (.mem m)).wf) &&
    [Instr.page2Undefined 0x20#8, .page3Undefined 0x8E#8, .leax ⟨.x, .off5 0x1F#5, false⟩, .hcf .opCD,
      .tfr .undefF .dp].all Instr.wf = true := by decide

theorem witness_EncodeOfDecode :
    decodesTo .page0 [0x30#8, 0x9F#8, 0x12#8, 0x34#8] (.leax ⟨.x, .extInd 0x1234#16, true⟩) &&
    decodesTo .page2 [0x00#8] (.page2Undefined 0x00#8) && decodesTo .page3 [0x3F#8] .swi3 = true := by decide

/-- Each undefined form, on page 0 and on page 2, with the register field 0 and 3. -/
theorem witness_UndefinedPostbytes :
    ([0x87#8, 0x8A#8, 0x8E#8, 0x8F#8, 0x90#8, 0x92#8, 0x97#8, 0x9A#8, 0x9E#8, 0xE7#8, 0xFE#8].all fun pb =>
      refuses (.undefinedPostbyte pb) (step (placeInstr .page0 [0x30#8, pb] start)) &&
      refuses (.undefinedPostbyte pb) (step (placeInstr .page2 [0xAE#8, pb] start)) &&
      (pb &&& 0x9F#8) ∈ [0x87#8, 0x8A#8, 0x8E#8, 0x8F#8, 0x90#8, 0x92#8, 0x97#8, 0x9A#8, 0x9E#8]) = true ∧
    shapeOf .page0 0x30#8 = .indexed .leax := ⟨by decide, rfl⟩

/-- One, two, three and four bytes, on the three pages. -/
theorem witness_StepRunsDecoded :
    ([(Page.page0, [0x40#8]), (.page0, [0x86#8, 0x42#8]), (.page0, [0x7F#8, 0x20#8, 0x00#8]),
      (.page0, [0xA6#8, 0x9F#8, 0x50#8, 0x00#8]), (.page2, [0xAE#8, 0x9F#8, 0x50#8, 0x00#8]), (.page3, [0x3F#8])].all
      fun r =>
        let s := placeInstr r.1 r.2 start
        s.phase == fetchPhase r.1 && s.script == [] && s.hostFault == none &&
        match decode r.1 [s.byteAt s.pc, s.byteAt (s.pc + 1#16), s.byteAt (s.pc + 2#16), s.byteAt (s.pc + 3#16)] with
        | .ok (i, rest) => rest.length + r.2.length == 4 && encodeOp i == r.2
        | .error _ => false) = true := by decide

theorem witness_HostReset : start.hostFault = none := rfl

theorem witness_ResetSequence : State.reset.Quiet ∧ State.reset.phase = .reset ∧ State.reset.halt = false :=
  ⟨⟨rfl, rfl⟩, rfl, rfl⟩

theorem witness_HaltInput :
    [Phase.resetCheckHalt, .labelA, .syncCheckHalt, .cwaiCheckHalt].all (fun p =>
      next (fun t => t.phase == p && t.cycle == 1#32) (step { start with phase := p, halt := true }) &&
      next (fun t => t.phase != p) (step { start with phase := p, halt := false })) = true := by decide

/-- Exactly 2 cycles after the assertion, and 1, on each line. -/
theorem witness_Recognition :
    let s := { start with nmi := ⟨true, 0#32⟩, nmiRequest := true, firq := ⟨true, 0#32⟩, irq := ⟨true, 0#32⟩ }
    [LineId.nmi, .firq, .irq].all (fun l => State.recognised { s with cycle := 2#32 } l &&
      !State.recognised { s with cycle := 1#32 } l) = true ∧
    State.recognised { s with cycle := 2#32, cc := 0x50#8 } .nmi = true ∧
    State.recognised { s with cycle := 2#32, cc := 0x40#8 } .firq = false ∧
    State.recognised { s with cycle := 2#32, cc := 0x10#8 } .irq = false := by decide

/-- Each line alone, and none. -/
theorem witness_LabelB :
    let s := { start with phase := .labelB, cycle := 2#32 }
    State.Quiet s ∧ State.recognised { s with nmiRequest := true } .nmi = true ∧
    State.recognised { s with firq := ⟨true, 0#32⟩ } .firq = true ∧
    State.recognised { s with firq := ⟨true, 0#32⟩ } .nmi = false ∧
    State.recognised { s with irq := ⟨true, 0#32⟩ } .irq = true ∧
    State.recognised { s with irq := ⟨true, 0#32⟩ } .firq = false ∧
    [LineId.nmi, .firq, .irq].all (fun l => !State.recognised s l) = true := ⟨⟨rfl, rfl⟩, by decide⟩

theorem witness_InterruptEntry :
    [LineId.nmi, .firq, .irq].all (fun l =>
      next (fun t => t.phase == .labelA) (step
        { start with phase := .dispatchIrq, irqSel := some l })) = true := by decide

/-- Each line that ends CWAI, and none. -/
theorem witness_CwaiEntry :
    let s := { start with phase := .dispatchIrq, viaCwai := true, cycle := 2#32 }
    State.Quiet s ∧ State.select { s with nmiRequest := true } = some .nmi ∧
    State.select { s with firq := ⟨true, 0#32⟩ } = some .firq ∧ State.select { s with irq := ⟨true, 0#32⟩ } = some
      .irq ∧
    State.select s = none := ⟨⟨rfl, rfl⟩, by decide⟩

/-- Offsets 0 and 11 are inside the frame, 12 outside. -/
theorem witness_EntireFrameLayout :
    (0 : Nat) < 12 ∧ (11 : Nat) < 12 ∧ 12 ≤ (start.s - (start.s - 12#16)).toNat ∧
    12 ≤ ((start.s - 13#16) - (start.s - 12#16)).toNat := by decide

theorem witness_SyncWait :
    let s := { start with phase := .sync }
    State.Quiet s ∧ s.params.syncWakeOnMasked = false ∧
    ({ s with params := { s.params with syncWakeOnMasked := true } } : State).params.syncWakeOnMasked = true :=
  ⟨⟨rfl, rfl⟩, rfl, rfl⟩

/-- A step in HCF with a host that asserts NMI inside it. -/
theorem witness_HcfForever :
    let s := { start with phase := .hcf }
    State.Quiet s ∧
    next (fun t => t.phase == .hcf && t.nmi.asserted && t.cycle == 1#32)
      (step { s with script := [[.setLine .nmi true]] }) = true := ⟨⟨rfl, rfl⟩, by decide⟩

/-- A state in each execution state that steps on to each of its successors. -/
theorem witness_PhaseGraph : ([
    (({ start with phase := .reset } : State), Phase.resetCheckHalt), ({ start with phase := .resetCheckHalt },
      .labelA),
    ({ start with phase := .resetCheckHalt, halt := true }, .resetCheckHalt), ({ start with phase := .labelA },
      .labelB),
    ({ start with phase := .labelA, halt := true }, .labelA), ({ start with phase := .labelB }, .nextInstruction),
    ({ start with phase := .labelB, nmiRequest := true, cycle := 2#32 }, .dispatchIrq),
    ({ start with phase := .dispatchIrq, irqSel := some .irq }, .labelA),
    ({ start with phase := .dispatchIrq, viaCwai := true }, .cwaiCheckHalt),
    (placeInstr .page0 [0x12#8] start, .labelA), (placeInstr .page0 [0x10#8] start, .page2),
    (placeInstr .page0 [0x11#8] start, .page3), (placeInstr .page0 [0x13#8] start, .sync),
    (placeInstr .page0 [0x3C#8, 0xFF#8] start, .dispatchIrq), (placeInstr .page0 [0x14#8] start, .hcf)]).all
      (fun r => next (fun t => t.phase == r.2) (step r.1)) = true := by decide

theorem witness_PhaseGraph_waits : ([
    (placeInstr .page2 [0x3F#8] start, Phase.labelA), (placeInstr .page2 [0x00#8] start, .hcf),
    (placeInstr .page3 [0x3F#8] start, .labelA), (placeInstr .page3 [0x00#8] start, .hcf),
    ({ start with phase := .sync }, .syncCheckHalt),
    ({ start with phase := .sync, nmiRequest := true, cycle := 2#32 }, .labelB),
    ({ start with phase := .syncCheckHalt }, .sync), ({ start with phase := .syncCheckHalt, halt := true },
      .syncCheckHalt),
    ({ start with phase := .cwaiCheckHalt }, .dispatchIrq),
    ({ start with phase := .cwaiCheckHalt, halt := true }, .cwaiCheckHalt), ({ start with phase := .hcf }, .hcf)]).all
      (fun r => next (fun t => t.phase == r.2) (step r.1)) = true := by decide

/-- A step with a host that moves inside its callouts. -/
theorem witness_CycleCountsBusCycles :
    next (fun t => t.cycle == 2#32 && t.trace.length == 4) (step { placeInstr .page0 [0x12#8] start with
      script := [[.setLine .irq true, .poke 0#16 1#8], [.setHalt true]] }) = true := by decide

theorem start_inv : start.Inv :=
  ⟨by decide, by simp [Sched.consistent, start, State.reset, Sched.find, findEvent], by decide, by decide,
    by decide, by decide⟩

theorem witness_StepKeepsInv : start.Inv ∧ ∃ t, step start = .next t := ⟨start_inv, _, rfl⟩

/-- Every move of the host, on a state that meets the invariant. -/
theorem witness_HostMoveKeepsInv :
    [HostMove.setLine .nmi true, .setHalt true, .setRunning false, .init 0 0, .dequeue 0, .dispatchNext .ui, .poke
      0#16 1#8,
     .reset, .jump 0#16, .run].all (fun m => next (fun _ => true) (hostMove m start)) &&
    [HostMove.queue .ui 0, .free 0, .setDeadline 0 1#32].all (fun m =>
      next (fun _ => true) (hostMove m { start with sched := ⟨[(0, ev 1#32 0)], [], []⟩ })) = true := by decide

/-- Each kind of instruction that changes H. -/
theorem witness_HalfCarryWriters :
    let s := { start with a := 0x0F#8, b := 0x0F#8, cc := 0x10#8 }
    let h := { start with cc := 0x20#8, s := 0x3000#16, u := 0x3000#16, a := 0x10#8 }
    [Instr.adda (.imm 1#8), .addb (.imm 1#8), .adca (.imm 1#8), .adcb (.imm 1#8), .ccshift, .orcc 0x20#8].all
      (fun i => next (fun t => getCc .h t.cc != getCc .h s.cc) (exec i s)) &&
    [Instr.andcc 0#8, .andccDup 0#8, .cwai 0#8, .tfr .a .cc, .exg .a .cc, .exg .cc .a, .puls 1#8, .pulu 1#8, .rti].all
      (fun i => next (fun t => getCc .h t.cc != getCc .h h.cc) (exec i h)) = true := by decide

/-- Each kind of instruction that changes DP. -/
theorem witness_DirectPageWriters :
    let s := poke 0x3000#16 0x80#8 { start with dp := 0x12#8, s := 0x3000#16, u := 0x3000#16 }
    [Instr.tfr .a .dp, .exg .a .dp, .exg .dp .a, .puls 0x08#8, .pulu 0x08#8, .rti].all
      (fun i => next (fun t => t.dp != s.dp) (exec i s)) = true := by decide

/-- Each kind of instruction that arms NMI, and some that change S and do not. -/
theorem witness_NmiArming :
    let s := { start with nmiArmed := false }
    [Instr.lds (.imm 0#16), .leas ⟨.x, .zero, false⟩, .tfr .x .s, .exg .x .s, .exg .s .x, .pulu 0x40#8].all
      (fun i => next (fun t => t.nmiArmed) (exec i s)) &&
    [Instr.pshs 0xFF#8, .puls 0x80#8, .pulu 0x80#8, .rti, .swi, .rts, .bsr 0#8, .lda (.mem (.indexed ⟨.s, .inc1,
      false⟩)),
      .ldx (.imm 0#16)].all (fun i => next (fun t => !t.nmiArmed) (exec i s)) = true := by decide

/-- An edge while armed, an edge while not, a release, and a level of each other line. -/
theorem witness_SetLine :
    (setLine .nmi true { start with cycle := 5#32 }).nmiRequest = true ∧
    (setLine .nmi true { start with nmiArmed := false }).nmiRequest = false ∧
    (setLine .nmi true { start with nmi := ⟨true, 1#32⟩, cycle := 5#32 }).nmi = ⟨true, 1#32⟩ ∧
    (setLine .nmi false { start with nmi := ⟨true, 1#32⟩, nmiRequest := true }).nmiRequest = true ∧
    (setLine .firq true { start with cycle := 5#32 }).firq = ⟨true, 5#32⟩ ∧
    (setLine .irq false { start with irq := ⟨true, 1#32⟩, cycle := 5#32 }).irq = ⟨false, 1#32⟩ := by decide

/-- Each storing shape, with an address beside the stored bytes. -/
theorem witness_MemoryFrame :
    let s := { start with s := 0x0400#16, u := 0x0800#16, x := 0x2000#16 }
    [Instr.neg (.direct 0x10#8), .sta (.extended 0x2000#16), .stx (.indexed ⟨.x, .inc2, false⟩), .stxImm, .jsr
      (.direct 0#8),
     .bsr 0#8, .pshs 0xFF#8, .pshu 0x0F#8, .swi, .cwai 0xFF#8, .nop].all (fun i =>
      completes s i && !(storedTo i s).contains 0x1234#16 &&
      (i == .nop || (storedTo i s).any fun a => next (fun t => (bus t).any fun o =>
        match o with
        | .write w _ => w == a
        | .read _ _ | .callback _ _ | .instructionHook | .instructionPosthook | .interruptHook _ => false)
          (exec i s))) = true := by decide

/-- The operands on either side of each overflow, and a carry in of 0 and 1. -/
theorem witness_OneOperandFlags :
    getCc .v (Flags.opNeg 0#8 0x80#8).2 = true ∧ getCc .v (Flags.opNeg 0#8 0x81#8).2 = false ∧
    getCc .v (Flags.opDec 0#8 0x80#8).2 = true ∧ getCc .v (Flags.opDec 0#8 0x81#8).2 = false ∧
    getCc .v (Flags.opInc 0#8 0x7F#8).2 = true ∧ getCc .v (Flags.opInc 0#8 0x7E#8).2 = false ∧
    (Flags.opRor 0#8 0x01#8).1 = 0x00#8 ∧ (Flags.opRor 1#8 0x01#8).1 = 0x80#8 := by decide

/-- The largest sum without a carry and the smallest with one; the carry in counts. -/
theorem witness_TwoOperandFlags :
    getCc .c (Flags.opAdd8 0#8 0xFE#8 0x01#8).2 = false ∧ getCc .c (Flags.opAdd8 0#8 0xFF#8 0x01#8).2 = true ∧
    getCc .c (Flags.opAdc8 1#8 0xFE#8 0x01#8).2 = true ∧ getCc .h (Flags.opAdc8 1#8 0x0E#8 0x01#8).2 = true ∧
    getCc .c (Flags.opSub8 0#8 0x01#8 0x01#8).2 = false ∧ getCc .c (Flags.opSbc8 1#8 0x01#8 0x01#8).2 = true := by
      decide

theorem witness_Word16Flags :
    getCc .c (Flags.opAdd16 0#8 0xFFFE#16 0x0001#16).2 = false ∧ getCc .c (Flags.opAdd16 0#8 0xFFFF#16 0x0001#16).2 =
      true ∧
    getCc .c (Flags.opSub16 0#8 0x0001#16 0x0001#16).2 = false ∧
    getCc .c (Flags.opSub16 0#8 0x0000#16 0x0001#16).2 = true := by decide

/-- Each memory instruction, at each edge of its operand. -/
theorem witness_RmwMemory : start.Quiet ∧ operands.all (fun m => complete
    [.neg m, .negDup m, .negcom m, .com m, .lsr m, .lsrDup m, .ror m, .asr m, .asl m, .rol m, .dec m, .decDup m, .inc m,
     .clr m, .tst m]) = true := ⟨start_quiet, by decide⟩

theorem witness_AccumulatorInherent : start.Quiet ∧ complete
    [.nega, .negb, .negaDup, .negbDup, .negcoma, .negcomb, .coma, .comb, .lsra, .lsrb, .lsraDup, .lsrbDup, .rora, .rorb,
     .asra, .asrb, .asla, .aslb, .rola, .rolb, .deca, .decb, .decaDup, .decbDup, .inca, .incb, .tsta, .tstb, .clra,
       .clrb,
     .clraDup, .clrbDup] = true := ⟨start_quiet, by decide⟩

theorem witness_Accumulator8 : start.Quiet ∧ (Src8.imm 0x80#8 :: operands.map Src8.mem).all (fun o => complete
    [.suba o, .subb o, .cmpa o, .cmpb o, .sbca o, .sbcb o, .anda o, .andb o, .bita o, .bitb o, .lda o, .ldb o, .eora o,
     .eorb o, .adca o, .adcb o, .ora o, .orb o, .adda o, .addb o]) = true := ⟨start_quiet, by decide⟩

theorem witness_Store8 : start.Quiet ∧ operands.all (fun m => complete [.sta m, .stb m]) = true :=
  ⟨start_quiet, by decide⟩

theorem witness_Discard : start.Quiet ∧ complete [.discard .op87 0#8, .discard .opC7 0xFF#8] = true :=
  ⟨start_quiet, by decide⟩

theorem witness_ArithmeticD : start.Quiet ∧ (Src16.imm 0x8000#16 :: operands.map Src16.mem).all (fun o =>
    complete [.addd o, .subd o]) = true := ⟨start_quiet, by decide⟩

theorem witness_Compare16 : start.Quiet ∧ (Src16.imm 0x8000#16 :: operands.map Src16.mem).all (fun o =>
    complete [.cmpd o, .cmpx o, .cmpy o, .cmpu o, .cmps o]) = true := ⟨start_quiet, by decide⟩

theorem witness_Load16 : start.Quiet ∧ (Src16.imm 0x8000#16 :: operands.map Src16.mem).all (fun o =>
    complete [.ldd o, .ldx o, .ldy o, .ldu o, .lds o]) = true := ⟨start_quiet, by decide⟩

theorem witness_Store16 : start.Quiet ∧ operands.all (fun m => complete [.std m, .stx m, .sty m, .stu m, .sts m]) =
  true :=
  ⟨start_quiet, by decide⟩

/-- Both values of the parameter. -/
theorem witness_IllegalImmediateStores : start.Quiet ∧ start.params.illegalUncertain = .asSpecified ∧
    complete [.stxImm, .stuImm] = true ∧
    ({ start with params := Config.decidedParams } : State).params.illegalUncertain = .refuse ∧
    ({ start with params := Config.decidedParams } : State).Quiet := ⟨start_quiet, rfl, by decide, rfl, rfl, rfl⟩

theorem witness_LoadEffectiveAddress : start.Quiet ∧
    [Indexed.mk .x (.off5 0x10#5) false, ⟨.s, .dec2, true⟩, ⟨.u, .accD, false⟩, ⟨.x, .extInd 0xFFFF#16, true⟩].all
      (fun x =>
      complete [.leax x, .leay x, .leas x, .leau x]) = true := ⟨start_quiet, by decide⟩

theorem witness_RegisterArithmetic : start.Quiet ∧ complete [.abx, .mul, .sex, .daa] = true := ⟨start_quiet, by decide⟩

/-- A regular pair of each class, an irregular one under each value of the parameter. -/
theorem witness_TransferExchange : start.Quiet ∧ regular .x .d = true ∧ regular .a .dp = true ∧
    start.params.tfrUndefined = .asXroar ∧ regular .a .x = false ∧ regular .x .undef6 = false ∧
    complete [.tfr .x .d, .exg .a .dp, .tfr .a .x, .exg .undefF .pc] = true ∧
    ({ start with params := Config.decidedParams } : State).params.tfrUndefined = .refuse := by
  exact ⟨start_quiet, by decide, by decide, rfl, by decide, by decide, by decide, rfl⟩

/-- Different registers hold different values, so that no two codes can be confused; an undefined code. -/
theorem witness_TransferValues :
    let s := { start with a := 1#8, b := 2#8, x := 3#16, y := 4#16, u := 5#16, s := 6#16, cc := 7#8, dp := 8#8 }
    [TReg.d, .x, .y, .u, .s, .pc, .a, .b, .cc, .dp].map (fun r => tregRead r s) =
      [0x0102#16, 3#16, 4#16, 5#16, 6#16, 0x2100#16, 0xFF01#16, 0xFF02#16, 0x0707#16, 0x0808#16] ∧
    TReg.undef6 ∈ [TReg.undef6, .undef7, .undefC, .undefD, .undefE, .undefF] := by decide

/-- The empty list, the full list, and one register. -/
theorem witness_PushPull : start.Quiet ∧ [0x00#8, 0x01#8, 0x80#8, 0xFF#8].all (fun p =>
    complete [.pshs p, .pshu p, .puls p, .pulu p]) = true := ⟨start_quiet, by decide⟩

/-- PSHS of everything, other registers changed, then a state for PULS. -/
theorem witness_PushPullRoundTrip :
    ∃ t u, exec (.pshs 0xFF#8) start = .next t ∧ u = { t with a := 0x55#8, x := 0x5555#16, cc := 0xFF#8 } ∧ u.Quiet ∧
      u.mem = t.mem ∧ u.s = t.s := ⟨_, _, rfl, rfl, ⟨rfl, rfl⟩, rfl, rfl⟩

theorem witness_ConditionCodeInstructions : start.Quiet ∧ start.params.illegalUncertain = .asSpecified ∧
    complete [.andcc 0xEF#8, .orcc 0x50#8, .nop, .nopDup, .ccshift, .andccDup 0x0F#8] = true ∧
    ({ start with params := Config.decidedParams } : State).params.illegalUncertain = .refuse :=
  ⟨start_quiet, rfl, by decide, rfl⟩

theorem witness_Branches : start.Quiet ∧ [0x00#8, 0x7F#8, 0x80#8, 0xFF#8].all (fun o => complete
    [.bra o, .brn o, .bhi o, .bls o, .bcc o, .bcs o, .bne o, .beq o, .bvc o, .bvs o, .bpl o, .bmi o, .bge o, .blt o,
      .bgt o,
     .ble o]) &&
    [0x0000#16, 0x7FFF#16, 0x8000#16].all (fun o => complete
      [.lbrn o, .lbhi o, .lbls o, .lbcc o, .lbcs o, .lbne o, .lbeq o, .lbvc o, .lbvs o, .lbpl o, .lbmi o, .lbge o,
        .lblt o,
       .lbgt o, .lble o]) = true := ⟨start_quiet, by decide⟩

theorem witness_Jumps : start.Quiet ∧ complete (.lbra 0x8000#16 :: .rts :: operands.map Instr.jmp) = true :=
  ⟨start_quiet, by decide⟩

/-- Each of the three call forms. -/
theorem witness_Calls : start.Quiet ∧ complete (.lbsr 0x8000#16 :: .bsr 0x80#8 :: operands.map Instr.jsr) = true ∧
    (∃ m, Instr.jsr (.direct 0#8) = .jsr m ∧ start = eaRegs m start) :=
  ⟨start_quiet, by decide, .direct 0#8, rfl, rfl⟩

theorem witness_SoftwareInterrupts : start.Quiet ∧ complete [.swi, .swi2, .swi3, .resetIll] = true :=
  ⟨start_quiet, by decide⟩

/-- Both values of E in the CC that is pulled. -/
theorem witness_ReturnFromInterrupt : start.Quiet ∧ complete [.rti] = true ∧
    (start.byteAt start.s).getLsbD 7 = false ∧
    ((poke 0#16 0x80#8 start).byteAt start.s).getLsbD 7 = true ∧ (poke 0#16 0x80#8 start).Quiet :=
  ⟨start_quiet, by decide, by decide, by decide, rfl, rfl⟩

theorem witness_SwiRtiRoundTrip : start.Quiet ∧ ∃ t, exec .swi start = .next t := ⟨start_quiet, _, rfl⟩

theorem witness_Cwai : start.Quiet ∧ complete [.cwai 0x00#8, .cwai 0xFF#8] = true := ⟨start_quiet, by decide⟩

theorem witness_StateSetters : start.Quiet ∧ start.params.page23Undefined = .hcf ∧
    complete [.sync, .hcf .op14, .hcf .op15, .hcf .opCD, .page2Prefix, .page3Prefix, .page2Undefined 0#8,
      .page3Undefined 0xFF#8] = true ∧
    ({ start with params := { start.params with page23Undefined := .refuse } } : State).params.page23Undefined =
      .refuse :=
  ⟨start_quiet, rfl, by decide, rfl⟩

/-- Deadlines 2^31 - 1 away on either side are in range, 2^31 away is not; a queued event; before, equal and after. -/
theorem witness_QueueEvent :
    let sc : Sched := ⟨[(0, ev 0x7FFFFFFF#32 0), (1, ev 0x80000001#32 0), (2, ev 0x80000000#32 0),
      (3, ⟨5#32, 0, true, some .ui⟩)], [3], []⟩
    let queues := fun (l : ListId) (e : EventId) => match sc.queue 0#32 l e with
      | .ok sc' => sc'.getList l == [e]
      | .error f => f == .deadlineOutOfRange && e == 2 || f == .doubleQueue && e == 3
    (queues .machine 0 && queues .machine 1 && queues .machine 2 && queues .machine 3) = true ∧
    (sc.insert 4#32 9 [3], sc.insert 5#32 9 [3], sc.insert 6#32 9 [3]) = ([9, 3], [3, 9], [3, 9]) := by decide

/-- An event on a list and one that is on none. -/
def queued1 : Sched := ⟨[(0, ⟨100#32, 7, true, some .ui⟩), (1, ev 5#32 8)], [0], []⟩

theorem queued1_consistent : queued1.consistent := by
  refine ⟨by decide, by decide, fun e => ?_, fun e => ?_, fun e v h => ?_⟩
  all_goals by_cases h0 : e = 0
  all_goals by_cases h1 : e = 1
  all_goals simp_all [queued1, Sched.find, findEvent, ev, eq_comm]

/-- An event that is queued, one that is not, and one that does not exist. -/
theorem witness_DequeueEvent : queued1.consistent ∧ queued1.find 0 = some ⟨100#32, 7, true, some .ui⟩ ∧
    queued1.find 1 = some (ev 5#32 8) ∧ (ev 5#32 8).queued = false ∧ queued1.find 2 = none :=
  ⟨queued1_consistent, rfl, rfl, rfl, rfl⟩

/-- R552: the entries around the event keep their order, its deadline and callback stay, the other list is untouched. -/
theorem test_dequeue_middle :
    let e := fun l : ListId => (⟨100#32, 7, true, some l⟩ : Event)
    (⟨[(0, e .ui), (1, e .ui), (2, e .ui), (3, e .machine)], [2, 0, 1], [3]⟩ : Sched).dequeue 0 =
      ⟨[(0, ⟨100#32, 7, false, none⟩), (1, e .ui), (2, e .ui), (3, e .machine)], [2, 1], [3]⟩ := by decide

/-- The empty list and a list with a head. -/
theorem witness_DispatchNext :
    let s := { start with sched := queued1 }
    State.Quiet s ∧ s.sched.consistent ∧ s.sched.getList .machine = [] ∧ s.sched.getList .ui = 0 :: [] :=
  ⟨⟨rfl, rfl⟩, queued1_consistent, rfl, rfl⟩

/-- Each of the three moves, in each state whose step makes a callout; the host goes on after it, in that callout and in
the next. -/
theorem witness_CalloutPreconditions :
    let s := { start with nmiRequest := true, cycle := 2#32, irqSel := some LineId.irq }
    [(HostMove.run, Fault.reentrantRun), (.jump 0#16, .jumpInsideStep), (.reset, .resetInsideStep)].all (fun r =>
      [({ s with phase := .resetCheckHalt } : State), { s with phase := .resetCheckHalt, halt := true },
        { s with phase := .nextInstruction }, { s with phase := .page2 }, { s with phase := .page3 },
        { s with phase := .sync }, { s with phase := .cwaiCheckHalt }, { s with phase := .hcf },
        { s with phase := .labelA, halt := true }, { s with phase := .syncCheckHalt, halt := true },
        { s with phase := .labelB }, { s with phase := .dispatchIrq },
        { s with phase := .dispatchIrq, viaCwai := true }].all fun s =>
          faults r.2 (step { s with script := [[r.1, .jump 1#16], [.setHalt true, .run]] })) &&
    (s.select == some .nmi) = true := by decide

/-- The three opcodes, with a host that would break a precondition in each later callout; with AS_SPECIFIED it does. -/
theorem witness_IllegalRefusedAtOpcode :
    [0x38#8, 0x8F#8, 0xCF#8].all (fun op =>
      let s := { placeInstr .page0 [op, 0x0F#8] { start with params := Config.decidedParams } with
        script := [[], [.run], [.reset]] }
      s.phase == .nextInstruction && s.hostFault == none && s.params.illegalUncertain == .refuse &&
        s.byteAt s.pc == op &&
      refuses .illegalUncertain (step s) && faults .reentrantRun (step { s with params := start.params })) = true := by
  decide
end Sys2Proof.Tests
end

section
/-! SUPPORT. The statements about the state of 10_state.md: the cycle counter, the reset state, and which instructions
write H and DP. -/

namespace Sys2Proof.Machine

/-! ### The cycle counter (R45) -/

/-- The world has seen some new observations, and the cycle counter has advanced by the bus cycles among them. -/
def Counted (s t : State) : Prop :=
  ∃ seen : List Obs, t.trace = seen ++ s.trace ∧
    t.cycle = s.cycle + BitVec.ofNat 32 (seen.filter Obs.isBus).length

theorem Counted.refl (s : State) : Counted s s := (Runs.refl s).seen

/-- The posthook at the end of an instruction is seen and is no bus cycle. -/
theorem Counted.done {s u : State} (h : Counted s u) : Counted s u.done := by
  obtain ⟨seen, ht, hc⟩ := h
  exact ⟨.instructionPosthook :: seen, by simp [ht], by simp [hc, Obs.isBus]⟩

theorem Ends.counted {s t : State} (h : Ends s t) : Counted s t := by
  cases h with
  | done u h e => subst e; exact Counted.done h.seen
  | entry u h e => subst e; exact Counted.done (u := { u with viaCwai := false }) h.seen
  | goto u h p hp e => subst e; exact h.seen
  | wait u h e => subst e; exact h.seen

theorem StepEnds.counted {s t : State} (h : StepEnds s t) : Counted s t := by
  cases h with
  | reset hp e => subst e; exact Counted.refl s
  | instr h hp => exact h.counted
  | entry u hp h e => subst e; exact h.seen
  | pick u hp h l e => subst e; exact h.seen
  | goto u p h e hp hv => subst e; exact h.seen

/-- Settles O17: every way a step can end is bus cycles, each one tick, and observations that are none. -/
theorem cycleCountsBusCycles : Obligations.CycleCountsBusCycles :=
  fun _ _ h => (step_ends h).counted

/-! ### The reset state -/

theorem Sched.empty_consistent : (⟨[], [], []⟩ : Sched).consistent := by
  simp [Sched.consistent, Sched.find, findEvent]

/-- Settles O19: memory and the scheduler are empty, and RESET is no state of the CWAI wait. -/
theorem resetInv : Obligations.ResetInv where
  mem := State.reset_mem_wf
  sched := Sched.empty_consistent
  nmi := by simp [State.reset]
  cwai := by simp [State.reset]
  dispatch := by simp [State.reset]
  check := by simp [State.reset]

/-! ### H through the flag computations -/

theorem getCc_or (k : CcBit) (a b : Byte) : getCc k (a ||| b) = (getCc k a || getCc k b) := by simp [getCc]

@[simp] theorem setNz8_half (r cc : Byte) : getCc .h (setNz8 r cc) = getCc .h cc := by simp [setNz8, getCc_setCc]
@[simp] theorem setNz16_half (r : Word) (cc : Byte) : getCc .h (setNz16 r cc) = getCc .h cc := by
  simp [setNz16, getCc_setCc]
@[simp] theorem setVc_half (v c : Bool) (cc : Byte) : getCc .h (setVc v c cc) = getCc .h cc := by
  simp [setVc, getCc_setCc]

namespace Flags

@[simp] theorem opNeg_half (cc v : Byte) : getCc .h (opNeg cc v).2 = getCc .h cc := by simp [opNeg]
@[simp] theorem opCom_half (cc v : Byte) : getCc .h (opCom cc v).2 = getCc .h cc := by simp [opCom]
@[simp] theorem opLsr_half (cc v : Byte) : getCc .h (opLsr cc v).2 = getCc .h cc := by simp [opLsr, getCc_setCc]
@[simp] theorem opRor_half (cc v : Byte) : getCc .h (opRor cc v).2 = getCc .h cc := by simp [opRor, getCc_setCc]
@[simp] theorem opAsr_half (cc v : Byte) : getCc .h (opAsr cc v).2 = getCc .h cc := by simp [opAsr, getCc_setCc]
@[simp] theorem opAsl_half (cc v : Byte) : getCc .h (opAsl cc v).2 = getCc .h cc := by simp [opAsl]
@[simp] theorem opRol_half (cc v : Byte) : getCc .h (opRol cc v).2 = getCc .h cc := by simp [opRol]
@[simp] theorem opDec_half (cc v : Byte) : getCc .h (opDec cc v).2 = getCc .h cc := by simp [opDec, getCc_setCc]
@[simp] theorem opInc_half (cc v : Byte) : getCc .h (opInc cc v).2 = getCc .h cc := by simp [opInc, getCc_setCc]
@[simp] theorem opTst_half (cc v : Byte) : getCc .h (opTst cc v).2 = getCc .h cc := by simp [opTst, getCc_setCc]
@[simp] theorem opClr_half (cc v : Byte) : getCc .h (opClr cc v).2 = getCc .h cc := by simp [opClr]
@[simp] theorem opNegcom_half (cc v : Byte) : getCc .h (opNegcom cc v).2 = getCc .h cc := by
  unfold opNegcom; split <;> simp
@[simp] theorem opSub8_half (cc a b : Byte) : getCc .h (opSub8 cc a b).2 = getCc .h cc := by simp [opSub8]
@[simp] theorem opSbc8_half (cc a b : Byte) : getCc .h (opSbc8 cc a b).2 = getCc .h cc := by simp [opSbc8]
@[simp] theorem opLd8_half (cc v : Byte) : getCc .h (opLd8 cc v).2 = getCc .h cc := by simp [opLd8, getCc_setCc]
@[simp] theorem opAnd8_half (cc a b : Byte) : getCc .h (opAnd8 cc a b).2 = getCc .h cc := opLd8_half ..
@[simp] theorem opOr8_half (cc a b : Byte) : getCc .h (opOr8 cc a b).2 = getCc .h cc := opLd8_half ..
@[simp] theorem opEor8_half (cc a b : Byte) : getCc .h (opEor8 cc a b).2 = getCc .h cc := opLd8_half ..
@[simp] theorem opAdd16_half (cc : Byte) (a b : Word) : getCc .h (opAdd16 cc a b).2 = getCc .h cc := by simp [opAdd16]
@[simp] theorem opSub16_half (cc : Byte) (a b : Word) : getCc .h (opSub16 cc a b).2 = getCc .h cc := by simp [opSub16]
@[simp] theorem opLd16_half (cc : Byte) (v : Word) : getCc .h (opLd16 cc v).2 = getCc .h cc := by
  simp [opLd16, getCc_setCc]
@[simp] theorem opMul_half (cc a b : Byte) : getCc .h (opMul cc a b).2 = getCc .h cc := by simp [opMul, getCc_setCc]
@[simp] theorem opSex_half (cc b : Byte) : getCc .h (opSex cc b).2 = getCc .h cc := by simp [opSex]
@[simp] theorem opDaa_half (cc a : Byte) : getCc .h (opDaa cc a).2 = getCc .h cc := by simp [opDaa, getCc_setCc]
@[simp] theorem discardCc_half (cc : Byte) : getCc .h (discardCc cc) = getCc .h cc := by simp [discardCc, getCc_setCc]

end Flags

/-! ### What the shared meanings leave of DP and H -/

/-- DP and H are as they were. -/
structure DpHalfKept (s t : State) : Prop where
  dp : t.dp = s.dp
  half : getCc .h t.cc = getCc .h s.cc

section shapes

variable {s t : State}

theorem complete_dpHalf {u : State} (k : complete u = .next t) (hd : u.dp = s.dp)
    (hh : getCc .h u.cc = getCc .h s.cc) : DpHalfKept s t := by
  obtain ⟨rfl, -⟩ := complete_next k
  exact ⟨hd, hh⟩

theorem goto_dpHalf {u : State} {p : Phase} (k : settle (u.goto p) = .next t) (hd : u.dp = s.dp)
    (hc : u.cc = s.cc) : DpHalfKept s t := by
  obtain ⟨rfl, -⟩ := settle_next k
  exact ⟨hd, congrArg _ hc⟩

theorem rmwMem_dpHalf {op : Byte → Byte → Byte × Byte} {m : MemOp}
    (hop : ∀ cc v, getCc .h (op cc v).2 = getCc .h cc) (k : rmwMem op m s = .next t) : DpHalfKept s t :=
  complete_dpHalf k (by simp) (by simp [hop])

theorem tstMem_dpHalf {m : MemOp} (k : tstMem m s = .next t) : DpHalfKept s t :=
  complete_dpHalf k (by simp) (by simp)

theorem inhA_dpHalf {op : Byte → Byte → Byte × Byte} (hop : ∀ cc v, getCc .h (op cc v).2 = getCc .h cc)
    (k : inhA op s = .next t) : DpHalfKept s t := complete_dpHalf k (by simp) (by simp [hop])

theorem inhB_dpHalf {op : Byte → Byte → Byte × Byte} (hop : ∀ cc v, getCc .h (op cc v).2 = getCc .h cc)
    (k : inhB op s = .next t) : DpHalfKept s t := complete_dpHalf k (by simp) (by simp [hop])

theorem tstA_dpHalf (k : tstA s = .next t) : DpHalfKept s t := complete_dpHalf k (by simp) (by simp)

theorem tstB_dpHalf (k : tstB s = .next t) : DpHalfKept s t := complete_dpHalf k (by simp) (by simp)

section operand8

variable {op : Byte → Byte → Byte → Byte × Byte} {o : Src8}

theorem accA_dp (k : accA op o s = .next t) : t.dp = s.dp := by
  obtain ⟨rfl, -⟩ := complete_next k
  simp

theorem accB_dp (k : accB op o s = .next t) : t.dp = s.dp := by
  obtain ⟨rfl, -⟩ := complete_next k
  simp

theorem accA_dpHalf (hop : ∀ cc a b, getCc .h (op cc a b).2 = getCc .h cc) (k : accA op o s = .next t) :
    DpHalfKept s t := complete_dpHalf k (by simp) (by simp [hop])

theorem accB_dpHalf (hop : ∀ cc a b, getCc .h (op cc a b).2 = getCc .h cc) (k : accB op o s = .next t) :
    DpHalfKept s t := complete_dpHalf k (by simp) (by simp [hop])

theorem testA_dpHalf (hop : ∀ cc a b, getCc .h (op cc a b).2 = getCc .h cc) (k : testA op o s = .next t) :
    DpHalfKept s t := complete_dpHalf k (by simp) (by simp [hop])

theorem testB_dpHalf (hop : ∀ cc a b, getCc .h (op cc a b).2 = getCc .h cc) (k : testB op o s = .next t) :
    DpHalfKept s t := complete_dpHalf k (by simp) (by simp [hop])

end operand8

theorem store8_dpHalf {f : State → Byte} {m : MemOp} (k : store8 f m s = .next t) : DpHalfKept s t :=
  complete_dpHalf k (by simp) (by simp)

theorem arithD_dpHalf {op : Byte → Word → Word → Word × Byte} {o : Src16}
    (hop : ∀ cc a b, getCc .h (op cc a b).2 = getCc .h cc) (k : arithD op o s = .next t) : DpHalfKept s t :=
  complete_dpHalf k (by simp) (by simp [hop])

theorem compare16_dpHalf {f : State → Word} {o : Src16} (k : compare16 f o s = .next t) : DpHalfKept s t :=
  complete_dpHalf k (by simp) (by simp)

theorem load16_dpHalf {f : Word → State → State} {o : Src16} (k : load16 f o s = .next t)
    (hd : ∀ v u, (f v u).dp = u.dp) (hc : ∀ v u, (f v u).cc = u.cc) : DpHalfKept s t :=
  complete_dpHalf k (by simp [hd]) (by simp [hc])

theorem store16_dpHalf {f : State → Word} {m : MemOp} (k : store16 f m s = .next t) : DpHalfKept s t :=
  complete_dpHalf k (by simp) (by simp)

theorem storeImm_dpHalf {f : State → Word} (k : storeImm f s = .next t) : DpHalfKept s t := by
  unfold storeImm at k
  split at k
  · exact (refuse_next k).elim
  · exact complete_dpHalf k (by simp) (by simp)

theorem lea_dpHalf {f : Word → State → State} {x : Indexed} (k : lea f x s = .next t)
    (hd : ∀ v u, (f v u).dp = u.dp) (hh : ∀ v u, getCc .h (f v u).cc = getCc .h u.cc) : DpHalfKept s t :=
  complete_dpHalf k (by simp [hd]) (by simp [hh])

theorem shortBranch_dpHalf {c : Cond} {off : Byte} (k : shortBranch c off s = .next t) : DpHalfKept s t := by
  unfold shortBranch at k
  dsimp only at k
  split at k <;> exact complete_dpHalf k (by simp) (by simp)

theorem longBranch_dpHalf {c : Cond} {off : Word} (k : longBranch c off s = .next t) : DpHalfKept s t := by
  unfold longBranch at k
  dsimp only at k
  split at k <;> exact complete_dpHalf k (by simp) (by simp)

theorem callTarget_dpHalf {w : Word} {u : State} (k : callTarget w u = .next t) (hd : u.dp = s.dp)
    (hc : u.cc = s.cc) : DpHalfKept s t := complete_dpHalf k (by simp [hd]) (by simp [hc])

/-- The masks of the software interrupts are F and I, so H is as it was. -/
theorem softwareInterrupt_dpHalf {v : Word} {m : Byte} (hm : getCc .h m = false)
    (k : softwareInterrupt v m s = .next t) : DpHalfKept s t := by
  refine complete_dpHalf k (by simp [stackEntire]) ?_
  simp [stackEntire, getCc_or, hm, show getCc .h ccE = false from rfl]

theorem undefinedByte_dpHalf (k : undefinedByte s = .next t) : DpHalfKept s t := by
  unfold undefinedByte at k
  split at k
  · exact goto_dpHalf k rfl rfl
  · exact (refuse_next k).elim

end shapes

/-! ### The instructions that may write DP or H -/

section writers

variable {s t : State}

theorem execAndccDup_dp {v : Byte} (k : execAndccDup v s = .next t) : t.dp = s.dp := by
  unfold execAndccDup at k
  split at k
  · exact (refuse_next k).elim
  · obtain ⟨rfl, -⟩ := complete_next k
    simp

theorem execTfr_dp_cc {r1 r2 : TReg} (k : execTfr r1 r2 s = .next t) :
    (r2 ≠ .dp → t.dp = s.dp) ∧ (r2 ≠ .cc → t.cc = s.cc) := by
  unfold execTfr at k
  split at k
  · exact (refuse_next k).elim
  · obtain ⟨rfl, -⟩ := complete_next k
    exact ⟨fun h => by simp [tregWrite_dp _ _ _ h], fun h => by simp [tregWrite_cc _ _ _ h]⟩

theorem execExg_dp_cc {r1 r2 : TReg} (k : execExg r1 r2 s = .next t) :
    (r1 ≠ .dp → r2 ≠ .dp → t.dp = s.dp) ∧ (r1 ≠ .cc → r2 ≠ .cc → t.cc = s.cc) := by
  unfold execExg at k
  split at k
  · exact (refuse_next k).elim
  · obtain ⟨rfl, -⟩ := complete_next k
    exact ⟨fun h1 h2 => by simp [tregWrite_dp _ _ _ h1, tregWrite_dp _ _ _ h2],
      fun h1 h2 => by simp [tregWrite_cc _ _ _ h1, tregWrite_cc _ _ _ h2]⟩

/-- PULS and PULU. -/
theorem pull_dp_cc {st : Stack} {p : Byte} (k : complete (filler (pullList st p (fillers 2 s))) = .next t) :
    (p.getLsbD 3 = false → t.dp = s.dp) ∧ (p.getLsbD 0 = false → t.cc = s.cc) := by
  obtain ⟨rfl, -⟩ := complete_next k
  exact ⟨fun h => by simp [pullList_dp _ _ _ h], fun h => by simp [pullList_cc _ _ _ h]⟩

/-- R403: with E clear in the CC it pulls, RTI pulls PC alone; CC is not pulled again. -/
theorem returnFromInterrupt_dp (k : returnFromInterrupt s = .next t) (he : getCc .e t.cc = false) : t.dp = s.dp := by
  obtain ⟨rfl, -⟩ := complete_next k
  generalize hu : ({ (pull8 .s (dummy s.pc s)).2 with cc := (pull8 .s (dummy s.pc s)).1 } : State) = u at he ⊢
  have hd : u.dp = s.dp := by subst hu; simp
  cases hE : u.cc.getLsbD 7 with
  | false => simp [-BitVec.getLsbD_eq_getElem, pullList_dp, hd]
  | true =>
    rw [done_cc, filler_cc, if_pos hE, pullList_cc _ _ _ (by decide)] at he
    exact absurd hE (Bool.eq_false_iff.mp he)

end writers

/-- What an instruction can do to DP and H: it leaves both, or it is one of the writers. -/
inductive DpHalfWrites (s t : State) : Instr → Prop
  | neither {i : Instr} (h : DpHalfKept s t) : DpHalfWrites s t i
  | add {i : Instr} (o : Src8) (hi : i = .adda o ∨ i = .addb o ∨ i = .adca o ∨ i = .adcb o) (hd : t.dp = s.dp) :
    DpHalfWrites s t i
  | immCc {i : Instr} (v : Byte) (hi : i = .andcc v ∨ i = .orcc v ∨ i = .cwai v ∨ i = .andccDup v)
    (hd : t.dp = s.dp) : DpHalfWrites s t i
  | ccshift (hd : t.dp = s.dp) : DpHalfWrites s t .ccshift
  | tfr (r1 r2 : TReg) (h : (r2 ≠ .dp → t.dp = s.dp) ∧ (r2 ≠ .cc → t.cc = s.cc)) : DpHalfWrites s t (.tfr r1 r2)
  | exg (r1 r2 : TReg)
    (h : (r1 ≠ .dp → r2 ≠ .dp → t.dp = s.dp) ∧ (r1 ≠ .cc → r2 ≠ .cc → t.cc = s.cc)) : DpHalfWrites s t (.exg r1 r2)
  | pull {i : Instr} (p : Byte) (hi : i = .puls p ∨ i = .pulu p)
    (h : (p.getLsbD 3 = false → t.dp = s.dp) ∧ (p.getLsbD 0 = false → t.cc = s.cc)) : DpHalfWrites s t i
  | rti (hd : getCc .e t.cc = false → t.dp = s.dp) : DpHalfWrites s t .rti

/-- R36, R40: what every instruction can do to DP and H, whatever the host does. -/
theorem exec_dpHalf {i : Instr} {s t : State} (k : exec i s = .next t) : DpHalfWrites s t i := by
  cases i <;> dsimp only [exec] at k
  case neg | negDup | negcom | com | lsr | lsrDup | ror | asr | asl | rol | dec | decDup | inc | clr =>
    exact .neither (rmwMem_dpHalf (by simp) k)
  case tst => exact .neither (tstMem_dpHalf k)
  case nega | negaDup | negcoma | coma | lsra | lsraDup | rora | asra | asla | rola | deca | decaDup | inca | clra |
      clraDup =>
    exact .neither (inhA_dpHalf (by simp) k)
  case negb | negbDup | negcomb | comb | lsrb | lsrbDup | rorb | asrb | aslb | rolb | decb | decbDup | incb | clrb |
      clrbDup =>
    exact .neither (inhB_dpHalf (by simp) k)
  case tsta => exact .neither (tstA_dpHalf k)
  case tstb => exact .neither (tstB_dpHalf k)
  case suba | sbca | anda | lda | eora | ora => exact .neither (accA_dpHalf (by simp) k)
  case subb | sbcb | andb | ldb | eorb | orb => exact .neither (accB_dpHalf (by simp) k)
  case cmpa | bita => exact .neither (testA_dpHalf (by simp) k)
  case cmpb | bitb => exact .neither (testB_dpHalf (by simp) k)
  case adda o | adca o => exact .add o (by simp) (accA_dp k)
  case addb o | adcb o => exact .add o (by simp) (accB_dp k)
  case sta | stb => exact .neither (store8_dpHalf k)
  case discard => exact .neither (complete_dpHalf k rfl (by simp))
  case addd | subd => exact .neither (arithD_dpHalf (by simp) k)
  case cmpd | cmpx | cmpy | cmpu | cmps => exact .neither (compare16_dpHalf k)
  case ldd | ldx | ldy | ldu | lds => exact .neither (load16_dpHalf k (fun _ _ => rfl) (fun _ _ => rfl))
  case std | stx | sty | stu | sts => exact .neither (store16_dpHalf k)
  case stxImm | stuImm => exact .neither (storeImm_dpHalf k)
  case leax | leay => exact .neither (lea_dpHalf k (fun _ _ => rfl) (fun _ _ => by simp [getCc_setCc]))
  case leas | leau => exact .neither (lea_dpHalf k (fun _ _ => rfl) (fun _ _ => rfl))
  case abx | mul | sex | daa => exact .neither (complete_dpHalf k (by simp) (by simp))
  case tfr r1 r2 => exact .tfr r1 r2 (execTfr_dp_cc k)
  case exg r1 r2 => exact .exg r1 r2 (execExg_dp_cc k)
  case pshs | pshu | nop | nopDup => exact .neither (complete_dpHalf k (by simp) (by simp))
  case puls p | pulu p => exact .pull p (by simp) (pull_dp_cc k)
  case andcc v | orcc v => exact .immCc v (by simp) (by obtain ⟨rfl, -⟩ := complete_next k; simp)
  case ccshift => exact .ccshift (by obtain ⟨rfl, -⟩ := complete_next k; simp)
  case andccDup v => exact .immCc v (by simp) (execAndccDup_dp k)
  case bra | brn | bhi | bls | bcc | bcs | bne | beq | bvc | bvs | bpl | bmi | bge | blt | bgt | ble =>
    exact .neither (shortBranch_dpHalf k)
  case lbrn | lbhi | lbls | lbcc | lbcs | lbne | lbeq | lbvc | lbvs | lbpl | lbmi | lbge | lblt | lbgt | lble =>
    exact .neither (longBranch_dpHalf k)
  case lbra | jmp | rts => exact .neither (complete_dpHalf k (by simp) (by simp))
  case lbsr | bsr | jsr => exact .neither (callTarget_dpHalf k (by simp) (by simp))
  case swi | swi2 | swi3 | resetIll => exact .neither (softwareInterrupt_dpHalf (by decide) k)
  case rti => exact .rti (returnFromInterrupt_dp k)
  case cwai v => exact .immCc v (by simp) (by obtain ⟨rfl, -⟩ := settle_next k; simp)
  case sync => exact .neither (goto_dpHalf k (by simp) (by simp))
  case hcf | page2Prefix | page3Prefix => exact .neither (goto_dpHalf k rfl rfl)
  case page2Undefined | page3Undefined => exact .neither (undefinedByte_dpHalf k)

/-- Settles O21, by what each instruction can do to H. -/
theorem halfCarryWriters : Obligations.HalfCarryWriters := by
  intro i s t k hne
  have same : t.cc ≠ s.cc := fun h => hne (congrArg _ h)
  cases exec_dpHalf k with
  | neither h => exact absurd h.half hne
  | add o hi hd => exact .inl ⟨o, hi⟩
  | immCc v hi hd => exact .inr (.inl ⟨v, hi⟩)
  | ccshift hd => simp
  | tfr r1 r2 h =>
    have hr : r2 = .cc := by_contra fun hn => same (h.2 hn)
    subst hr
    exact .inr (.inr (.inl ⟨r1, .inl rfl⟩))
  | exg r1 r2 h =>
    by_cases h1 : r1 = .cc
    · subst h1; exact .inr (.inr (.inl ⟨r2, .inr (.inr rfl)⟩))
    · have h2 : r2 = .cc := by_contra fun hn => same (h.2 h1 hn)
      subst h2; exact .inr (.inr (.inl ⟨r1, .inr (.inl rfl)⟩))
  | pull p hi h =>
    have hp : p.getLsbD 0 = true := Bool.eq_true_of_not_eq_false fun hn => same (h.2 hn)
    exact .inr (.inr (.inr (.inl ⟨p, hp, hi⟩)))
  | rti hd => simp

/-- Settles O22, by what each instruction can do to DP. -/
theorem directPageWriters : Obligations.DirectPageWriters := by
  intro i s t k hne
  cases exec_dpHalf k with
  | neither h => exact absurd h.dp hne
  | add o hi hd => exact absurd hd hne
  | immCc v hi hd => exact absurd hd hne
  | ccshift hd => exact absurd hd hne
  | tfr r1 r2 h =>
    have hr : r2 = .dp := by_contra fun hn => hne (h.1 hn)
    subst hr
    exact .inl ⟨r1, .inl rfl⟩
  | exg r1 r2 h =>
    by_cases h1 : r1 = .dp
    · subst h1; exact .inl ⟨r2, .inr (.inr rfl)⟩
    · have h2 : r2 = .dp := by_contra fun hn => hne (h.1 h1 hn)
      subst h2; exact .inl ⟨r1, .inr (.inl rfl)⟩
  | pull p hi h =>
    have hp : p.getLsbD 3 = true := Bool.eq_true_of_not_eq_false fun hn => hne (h.1 hn)
    exact .inr (.inl ⟨p, hp, hi⟩)
  | rti hd => exact .inr (.inr ⟨rfl, Bool.eq_true_of_not_eq_false fun hn => hne (hd hn)⟩)

end Sys2Proof.Machine
end

section
/-! SUPPORT. The statements about the encoding of 30_encoding.md: which postbytes name no form, and how a step that
fetches one ends. -/

namespace Sys2Proof

/-! ### The decoder (R128) -/

/-- R128's list, with the register field (bits 6 and 5) masked out. -/
theorem pbForm_eq_none_iff (pb : Byte) : pbForm pb = none ↔
    pb &&& 0x9F#8 ∈ [0x87#8, 0x8A#8, 0x8E#8, 0x8F#8, 0x90#8, 0x92#8, 0x97#8, 0x9A#8, 0x9E#8] := by
  revert pb; decide

/-- The decoder rejects a postbyte as undefined for no other reason than that it names no form. -/
theorem decodeIndexed_undefinedPostbyte_iff (pb : Byte) (rest : List Byte) :
    decodeIndexed (pb :: rest) = .error (.undefinedPostbyte pb) ↔ pbForm pb = none := by
  cases hp : pbForm pb with
  | none => simp [decodeIndexed, hp]
  | some p =>
    cases p with
    | plain m => simp [decodeIndexed, hp]
    | byte f => cases rest <;> simp [decodeIndexed, hp]
    | word f =>
      match rest with
      | [] | [_] | _ :: _ :: _ => simp [decodeIndexed, hp]

/-- An undefined postbyte after the opcode byte of an indexed instruction is what the decoder rejects. -/
theorem decode_undefinedPostbyte {pg : Page} {op pb : Byte} {f : Indexed → Instr} (hs : shapeOf pg op = .indexed f)
    (hp : pbForm pb = none) (rest : List Byte) :
    decode pg (op :: pb :: rest) = .error (.undefinedPostbyte pb) := by
  simp [decode, hs, decodeShape, (decodeIndexed_undefinedPostbyte_iff pb rest).mpr hp]

/-- Settles O1: each sequence is decoded by evaluation. -/
theorem opcodeWords : Obligations.OpcodeWords :=
  ⟨rfl, rfl, rfl, rfl, rfl, rfl, rfl, rfl, rfl, rfl, rfl, rfl⟩

end Sys2Proof

namespace Sys2Proof.Machine

/-! ### The step -/

/-- A step in a fetch state runs an instruction of its page, after the hook on page 0 (R534 to R536). -/
theorem step_of_fetchPhase {s : State} {pg : Page} (h : s.phase = fetchPhase pg) :
    step s = runInstruction pg (if pg = .page0 then hookFetch s else s) := by
  cases pg <;> simp [step, h, fetchPhase]

/-- Bytes that the decoder rejects, where no opcode is refused as such, end the step by that name. -/
theorem runInstruction_of_error {pg : Page} {s : State} {e : DecodeError} (h : refusedAtOpcode pg s = false)
    (hd : decode pg (fetchInstr pg s).1 = .error e) : runInstruction pg s = reject e (fetchInstr pg s).2 := by
  simp [runInstruction, h, hd]

/-- An opcode byte with an indexed operand is none that is refused as such: 0x38 takes an immediate byte. -/
theorem refusedAtOpcode_of_indexed {pg : Page} {s : State} {f : Indexed → Instr} (h : s.script = [])
    (hs : shapeOf pg (s.byteAt s.pc) = .indexed f) : refusedAtOpcode pg s = false := by
  rw [refusedAtOpcode_quiet h, Bool.eq_false_iff]
  intro hr
  simp only [Bool.and_eq_true, beq_iff_eq] at hr
  obtain ⟨⟨rfl, h38⟩, -⟩ := hr
  rw [h38] at hs
  cases hs

/-- The fetch of an indexed instruction whose postbyte names no form stops after that byte (R128), and breaks no
precondition of the host. -/
theorem fetchInstr_undefinedPostbyte {pg : Page} {s : State} {f : Indexed → Instr} (h : s.script = [])
    (hs : shapeOf pg (s.byteAt s.pc) = .indexed f) (hp : pbForm (s.byteAt (s.pc + 1#16)) = none) :
    (fetchInstr pg s).1 = [s.byteAt s.pc, s.byteAt (s.pc + 1#16)] ∧
      (fetchInstr pg s).2.hostFault = s.hostFault := by
  obtain ⟨pb, ops, n, hn, hf⟩ := fetchInstr_quiet h pg
  have h2 : n = 2 := by simp [hn, instrBytes, hs, pbOffsetBytes, hp]
  subst h2
  rw [hf]
  exact ⟨rfl, rfl⟩

/-- R128: such an instruction is refused with its postbyte. -/
theorem runInstruction_undefinedPostbyte {pg : Page} {s : State} {f : Indexed → Instr} (hq : s.Quiet)
    (hs : shapeOf pg (s.byteAt s.pc) = .indexed f) (hp : pbForm (s.byteAt (s.pc + 1#16)) = none) :
    runInstruction pg s = .refused (.undefinedPostbyte (s.byteAt (s.pc + 1#16))) := by
  obtain ⟨hscript, hfault⟩ := hq
  obtain ⟨hbytes, hkept⟩ := fetchInstr_undefinedPostbyte hscript hs hp
  have hd : decode pg (fetchInstr pg s).1 = .error (.undefinedPostbyte (s.byteAt (s.pc + 1#16))) := by
    rw [hbytes]
    exact decode_undefinedPostbyte hs hp []
  rw [runInstruction_of_error (refusedAtOpcode_of_indexed hscript hs) hd]
  exact refuse_quiet (hkept.trans hfault) _

/-- Settles O4: the nine forms are the postbytes `pbForm` gives no form, and the step fetches, decodes and refuses at
the postbyte. -/
theorem undefinedPostbytes : Obligations.UndefinedPostbytes := by
  refine ⟨fun pb rest => (decodeIndexed_undefinedPostbyte_iff pb rest).trans (pbForm_eq_none_iff pb), ?_⟩
  intro s pg f hq hphase hs hmem
  have hp := (pbForm_eq_none_iff _).mpr hmem
  rw [step_of_fetchPhase hphase]
  split
  · exact runInstruction_undefinedPostbyte (s := hookFetch s) hq hs hp
  · exact runInstruction_undefinedPostbyte hq hs hp

end Sys2Proof.Machine
end

section
/-! SUPPORT. The statements of 40_rmw8.md: the one-operand flag computations, the read-modify-write instructions on
memory, and the accumulator forms. -/

namespace Sys2Proof.Machine

/-! ### The one-operand primitives (R200 to R211) -/

/-- A bit written with the value it has is no change. -/
theorem setCc_of_getCc {k : CcBit} {b : Bool} {cc : Byte} (h : getCc k cc = b) : setCc k b cc = cc := by
  subst h; revert cc; cases k <;> decide

/-- E, F, H and I stand above bit 3: writing another flag leaves the upper half. -/
theorem setCc_upper {k : CcBit} (hk : k.pos < 4) (b : Bool) (cc : Byte) :
    setCc k b cc &&& 0xF0#8 = cc &&& 0xF0#8 := by
  cases b with
  | true =>
    have hbit : (1#8 <<< k.pos) &&& 0xF0#8 = 0#8 := by revert hk; cases k <;> decide
    simp [setCc, BitVec.and_or_distrib_right, hbit]
  | false =>
    have hmask : ~~~(1#8 <<< k.pos) &&& 0xF0#8 = 0xF0#8 := by revert hk; cases k <;> decide
    simp [setCc, BitVec.and_assoc, hmask]

/-- CC with N and Z of the result `r`, and V and C as given. -/
def nzvc (r : Byte) (v c : Bool) (cc : Byte) : Byte := setVc v c (setNz8 r cc)

theorem nzvc_flags (r : Byte) (v c : Bool) (cc : Byte) :
    getCc .n (nzvc r v c cc) = r.getLsbD 7 ∧ getCc .z (nzvc r v c cc) = (r == 0#8) ∧ getCc .v (nzvc r v c cc) = v ∧
      getCc .c (nzvc r v c cc) = c ∧ nzvc r v c cc &&& 0xF0#8 = cc &&& 0xF0#8 := by
  refine ⟨?_, ?_, ?_, ?_, ?_⟩
  · simp [nzvc, setVc, setNz8, getCc_setCc]
  · simp [nzvc, setVc, setNz8, getCc_setCc]
  · simp [nzvc, setVc, getCc_setCc]
  · simp [nzvc, setVc]
  · rw [nzvc, setVc, setCc_upper (by decide), setCc_upper (by decide), setNz8, setCc_upper (by decide),
      setCc_upper (by decide)]

/-- A primitive that writes C and not V. -/
theorem setC_eq_nzvc (r : Byte) (c : Bool) (cc : Byte) : setCc .c c (setNz8 r cc) = nzvc r (getCc .v cc) c cc := by
  rw [nzvc, setVc, setCc_of_getCc (k := .v) (by simp [setNz8, getCc_setCc])]

/-- A primitive that writes V and not C. -/
theorem setV_eq_nzvc (r : Byte) (v : Bool) (cc : Byte) : setCc .v v (setNz8 r cc) = nzvc r v (getCc .c cc) cc := by
  rw [nzvc, setVc, setCc_of_getCc (k := .c) (by simp [setNz8, getCc_setCc])]

namespace Flags

theorem opLsr_eq (cc v : Byte) : opLsr cc v = (v >>> 1, nzvc (v >>> 1) (getCc .v cc) (v.getLsbD 0) cc) :=
  congrArg _ (setC_eq_nzvc ..)

/-- C moves into bit 7. -/
theorem opRor_eq (cc v : Byte) :
    let r : Byte := BitVec.ofBool (getCc .c cc) ++ v.extractLsb' 1 7
    opRor cc v = (r, nzvc r (getCc .v cc) (v.getLsbD 0) cc) := by
  have hr : (v >>> 1) ||| (if getCc .c cc then 0x80#8 else 0#8) =
      BitVec.ofBool (getCc .c cc) ++ v.extractLsb' 1 7 := by
    generalize getCc .c cc = c
    revert v; cases c <;> decide
  simp only [opRor, setC_eq_nzvc, hr]

/-- Bit 7 stays. -/
theorem opAsr_eq (cc v : Byte) :
    let r : Byte := BitVec.ofBool (v.getLsbD 7) ++ v.extractLsb' 1 7
    opAsr cc v = (r, nzvc r (getCc .v cc) (v.getLsbD 0) cc) := by
  have hr : (v &&& 0x80#8) ||| (v >>> 1) = BitVec.ofBool (v.getLsbD 7) ++ v.extractLsb' 1 7 := by revert v; decide
  simp only [opAsr, setC_eq_nzvc, hr]

/-- C moves into bit 0. -/
theorem opRol_eq (cc v : Byte) :
    let r : Byte := v.extractLsb' 0 7 ++ BitVec.ofBool (getCc .c cc)
    opRol cc v = (r, nzvc r (v.getLsbD 7 ^^ v.getLsbD 6) (v.getLsbD 7) cc) := by
  have hr : (v <<< 1) ||| (if getCc .c cc then 1#8 else 0#8) = v.extractLsb' 0 7 ++ BitVec.ofBool (getCc .c cc) := by
    generalize getCc .c cc = c
    revert v; cases c <;> decide
  simp only [opRol, nzvc, hr]

theorem opDec_eq (cc v : Byte) : opDec cc v = (v - 1#8, nzvc (v - 1#8) (v == 0x80#8) (getCc .c cc) cc) :=
  congrArg _ (setV_eq_nzvc ..)

theorem opInc_eq (cc v : Byte) : opInc cc v = (v + 1#8, nzvc (v + 1#8) (v == 0x7F#8) (getCc .c cc) cc) :=
  congrArg _ (setV_eq_nzvc ..)

theorem opTst_eq (cc v : Byte) : opTst cc v = (v, nzvc v false (getCc .c cc) cc) := congrArg _ (setV_eq_nzvc ..)

/-- R211: each of the two outcomes is COM's or NEG's. -/
theorem opNegcom_eq (cc v : Byte) :
    let c := getCc .c cc
    let r := if c then ~~~v else 0#8 - v
    opNegcom cc v =
      (r, nzvc r (if c then false else v == 0x80#8) (if c then true else v != 0#8) cc) := by
  cases hc : getCc .c cc
  · simp [opNegcom, hc, opNeg, nzvc]
  · simp [opNegcom, hc, opCom, nzvc]

end Flags

/-- Settles O26: each primitive is its result with N and Z of it, and V and C of its row. -/
theorem oneOperandFlags : Obligations.OneOperandFlags := by
  intro cc v c op r vf cf hmem
  have row : op cc v = (r, nzvc r vf cf cc) := by
    simp only [List.mem_cons, List.not_mem_nil, or_false, Prod.mk.injEq] at hmem
    rcases hmem with ⟨rfl, rfl, rfl, rfl⟩ | ⟨rfl, rfl, rfl, rfl⟩ | ⟨rfl, rfl, rfl, rfl⟩ | ⟨rfl, rfl, rfl, rfl⟩ |
      ⟨rfl, rfl, rfl, rfl⟩ | ⟨rfl, rfl, rfl, rfl⟩ | ⟨rfl, rfl, rfl, rfl⟩ | ⟨rfl, rfl, rfl, rfl⟩ |
      ⟨rfl, rfl, rfl, rfl⟩ | ⟨rfl, rfl, rfl, rfl⟩ | ⟨rfl, rfl, rfl, rfl⟩ | ⟨rfl, rfl, rfl, rfl⟩
    · rfl
    · rfl
    · exact Flags.opLsr_eq cc v
    · exact Flags.opRor_eq cc v
    · exact Flags.opAsr_eq cc v
    · rfl
    · exact Flags.opRol_eq cc v
    · exact Flags.opDec_eq cc v
    · exact Flags.opInc_eq cc v
    · exact Flags.opTst_eq cc r
    · rfl
    · exact Flags.opNegcom_eq cc v
  rw [row]
  exact ⟨rfl, nzvc_flags r vf cf cc⟩

/-! ### The shared meanings under a host that does not interfere (R212, R213, R241) -/

section quiet

variable {s : State} (op : Byte → Byte → Byte × Byte) (m : MemOp)

/-- R212. -/
theorem rmwMem_quiet (h : s.Quiet) :
    rmwMem op m s = .next
      { ((eaRegs m s).after (eaBus m s ++
          [s.look (eaOf m s), s.fill, .write (eaOf m s) (op s.cc (s.byteAt (eaOf m s))).1])).done with
        cc := (op s.cc (s.byteAt (eaOf m s))).2,
        mem := s.mem.write (eaOf m s).toNat (op s.cc (s.byteAt (eaOf m s))).1 } := by
  obtain ⟨hscript, hfault⟩ := h
  simp [rmwMem, ea_quiet, readCycle_quiet, filler_quiet, writeCycle_quiet, hscript, complete_quiet, hfault, State.after,
    State.done, State.byteAt, State.look, State.fill,
    BitVec.ofNat_add, BitVec.add_assoc]

/-- R241. -/
theorem tstMem_quiet (h : s.Quiet) :
    tstMem m s = .next
      { ((eaRegs m s).after (eaBus m s ++ [s.look (eaOf m s), s.fill, s.fill])).done with
        cc := (Flags.opTst s.cc (s.byteAt (eaOf m s))).2 } := by
  obtain ⟨hscript, hfault⟩ := h
  simp [tstMem, ea_quiet, readCycle_quiet, fillers_quiet, hscript, complete_quiet, hfault, State.after, State.done,
    State.byteAt, State.look, State.fill, List.replicate, BitVec.ofNat_add, BitVec.add_assoc]

/-- R213 on A. -/
theorem inhA_quiet (h : s.Quiet) :
    inhA op s = .next { (s.after [s.look s.pc]).done with a := (op s.cc s.a).1, cc := (op s.cc s.a).2 } := by
  obtain ⟨hscript, hfault⟩ := h
  simp [inhA, dummy_quiet, hscript, complete_quiet, hfault, State.done]

/-- R213 on B. -/
theorem inhB_quiet (h : s.Quiet) :
    inhB op s = .next { (s.after [s.look s.pc]).done with b := (op s.cc s.b).1, cc := (op s.cc s.b).2 } := by
  obtain ⟨hscript, hfault⟩ := h
  simp [inhB, dummy_quiet, hscript, complete_quiet, hfault, State.done]

end quiet

/-- Settles O30: the fifteen instructions are R212's and R241's shapes. -/
theorem rmwMemory : Obligations.RmwMemory := by
  refine ⟨fun i op hmem m s h => ?_, fun m s h => tstMem_quiet m h⟩
  have shape : exec (i m) s = rmwMem op m s := by
    simp only [List.mem_cons, List.not_mem_nil, or_false, Prod.mk.injEq] at hmem
    rcases hmem with ⟨rfl, rfl⟩ | ⟨rfl, rfl⟩ | ⟨rfl, rfl⟩ | ⟨rfl, rfl⟩ | ⟨rfl, rfl⟩ | ⟨rfl, rfl⟩ | ⟨rfl, rfl⟩ |
      ⟨rfl, rfl⟩ | ⟨rfl, rfl⟩ | ⟨rfl, rfl⟩ | ⟨rfl, rfl⟩ | ⟨rfl, rfl⟩ | ⟨rfl, rfl⟩ | ⟨rfl, rfl⟩ <;> rfl
  exact shape.trans (rmwMem_quiet op m h)

/-- Settles O31: the sixteen pairs are R213's shape on A and on B; TST answers the value it tests, so TSTA and TSTB are
of that shape too. -/
theorem accumulatorInherent : Obligations.AccumulatorInherent := by
  intro ia ib op hmem s h
  obtain ⟨onA, onB⟩ : exec ia s = inhA op s ∧ exec ib s = inhB op s := by
    simp only [List.mem_cons, List.not_mem_nil, or_false, Prod.mk.injEq] at hmem
    rcases hmem with ⟨rfl, rfl, rfl⟩ | ⟨rfl, rfl, rfl⟩ | ⟨rfl, rfl, rfl⟩ | ⟨rfl, rfl, rfl⟩ | ⟨rfl, rfl, rfl⟩ |
      ⟨rfl, rfl, rfl⟩ | ⟨rfl, rfl, rfl⟩ | ⟨rfl, rfl, rfl⟩ | ⟨rfl, rfl, rfl⟩ | ⟨rfl, rfl, rfl⟩ | ⟨rfl, rfl, rfl⟩ |
      ⟨rfl, rfl, rfl⟩ | ⟨rfl, rfl, rfl⟩ | ⟨rfl, rfl, rfl⟩ | ⟨rfl, rfl, rfl⟩ | ⟨rfl, rfl, rfl⟩ <;> exact ⟨rfl, rfl⟩
  exact ⟨onA.trans (inhA_quiet op h), onB.trans (inhB_quiet op h)⟩

end Sys2Proof.Machine
end

section
/-! SUPPORT. The memory frame: what each instruction can do to memory under a host that does not interfere, carried
through its bus cycles and register updates. -/

namespace Sys2Proof.Machine

/-! ### Memories that differ only at given addresses -/

/-- Every address outside `A` reads the same. -/
def Memory.SameOutside (A : List Word) (m n : Memory) : Prop := ∀ a : Word, a ∉ A → n.read a.toNat = m.read a.toNat

theorem Memory.SameOutside.refl (A : List Word) (m : Memory) : m.SameOutside A m := fun _ _ => rfl

theorem Memory.SameOutside.write {A : List Word} {m n : Memory} (h : m.SameOutside A n) {a : Word} (ha : a ∈ A)
    (v : Byte) : m.SameOutside A (n.write a.toNat v) := by
  intro b hb
  have hne : b.toNat ≠ a.toNat := fun e => hb (BitVec.eq_of_toNat_eq e ▸ ha)
  rw [Memory.read_write_other _ _ hne]
  exact h b hb

/-- The addresses of `n` bytes pushed from `sp` down, the highest first. -/
def pushAddrs (sp : Word) (n : Nat) : List Word := (List.range n).map fun k => sp - 1#16 - BitVec.ofNat 16 k

theorem pushAddrs_succ (sp : Word) (n : Nat) : pushAddrs sp (n + 1) = (sp - 1#16) :: pushAddrs (sp - 1#16) n := by
  have next : ∀ k : Nat, sp - 1#16 - BitVec.ofNat 16 (k + 1) = sp - 1#16 - 1#16 - BitVec.ofNat 16 k := by
    intro k
    rw [BitVec.ofNat_add, BitVec.add_comm, ← BitVec.sub_sub]
  rw [pushAddrs, List.range_succ_eq_map, List.map_cons, List.map_map]
  exact congrArg₂ _ (BitVec.sub_zero _) (List.map_congr_left fun k _ => next k)

theorem Memory.SameOutside.pushMem {A : List Word} {m n : Memory} {sp : Word} {l : List Byte} (h : m.SameOutside A n)
    (hA : pushAddrs sp l.length ⊆ A) : m.SameOutside A (pushMem n sp l) := by
  induction l generalizing n sp with
  | nil => exact h
  | cons v vs ih =>
    rw [List.length_cons, pushAddrs_succ, List.cons_subset] at hA
    exact ih (h.write hA.1 v) hA.2

/-! ### Bus cycles and register updates -/

/-- From `p`, `q` is reached with no host move left to come, and with stores to addresses of `A` only. -/
structure StoresIn (A : List Word) (p q : State) : Prop where
  script : q.script = []
  mem : p.mem.SameOutside A q.mem

theorem StoresIn.refl {s : State} (h : s.script = []) (A : List Word) : StoresIn A s s := ⟨h, .refl A s.mem⟩

section steps

variable {A : List Word} {s u : State}

/-- An update of registers only. -/
theorem StoresIn.update {w : State} (h : StoresIn A s u) (hs : w.script = u.script) (hm : w.mem = u.mem) :
    StoresIn A s w := ⟨hs.trans h.script, hm ▸ h.mem⟩

theorem StoresIn.readCycle (h : StoresIn A s u) (a : Word) : StoresIn A s (readCycle a u).2 := by
  rw [readCycle_quiet h.script]; exact h.update rfl rfl

theorem StoresIn.dummy (h : StoresIn A s u) (a : Word) : StoresIn A s (dummy a u) := h.readCycle a

theorem StoresIn.filler (h : StoresIn A s u) : StoresIn A s (filler u) := h.readCycle _

theorem StoresIn.fillers (h : StoresIn A s u) (n : Nat) : StoresIn A s (fillers n u) := by
  rw [fillers_quiet h.script]; exact h.update rfl rfl

theorem StoresIn.writeCycle (h : StoresIn A s u) {a : Word} (ha : a ∈ A) (v : Byte) :
    StoresIn A s (writeCycle a v u) := by
  rw [writeCycle_quiet h.script]; exact ⟨h.script, h.mem.write ha v⟩

theorem StoresIn.writeWord (h : StoresIn A s u) {a : Word} (ha : a ∈ A) (hb : a + 1#16 ∈ A) (v : Word) :
    StoresIn A s (writeWord a v u) := (h.writeCycle ha _).writeCycle hb _

theorem StoresIn.eaIndexed (h : StoresIn A s u) (x : Indexed) : StoresIn A s (eaIndexed x u).2 := by
  rw [eaIndexed_quiet h.script]; exact h.update (by simp) (by simp)

theorem StoresIn.ea (h : StoresIn A s u) (m : MemOp) : StoresIn A s (ea m u).2 := by
  rw [ea_quiet h.script]; exact h.update (by simp) (by simp)

theorem StoresIn.operand8 (h : StoresIn A s u) (o : Src8) : StoresIn A s (operand8 o u).2 := by
  rw [operand8_quiet h.script]; exact h.update (by simp) (by simp)

theorem StoresIn.operand16 (h : StoresIn A s u) (o : Src16) : StoresIn A s (operand16 o u).2 := by
  rw [operand16_quiet h.script]; exact h.update (by simp) (by simp)

theorem StoresIn.tregWrite (h : StoresIn A s u) (r : TReg) (v : Word) : StoresIn A s (tregWrite r v u) := by
  cases r <;> exact h.update rfl rfl

theorem StoresIn.push16 (h : StoresIn A s u) {st : Stack} (hA : pushAddrs (u.sp st) 2 ⊆ A) (v : Word) :
    StoresIn A s (push16 st v u) := by
  rw [push16_quiet h.script]; exact ⟨(pushBytes_script ..).trans h.script, h.mem.pushMem hA⟩

theorem StoresIn.pushList (h : StoresIn A s u) {st : Stack} {p : Byte} (hA : pushAddrs (u.sp st) (listBytes p) ⊆ A) :
    StoresIn A s (pushList st p u) := by
  rw [← pushOrder_length st p u] at hA
  rw [pushList_quiet h.script]
  exact ⟨(pushed_script ..).trans h.script, h.mem.pushMem hA⟩

theorem StoresIn.pull8 (h : StoresIn A s u) (st : Stack) : StoresIn A s (pull8 st u).2 :=
  (h.readCycle (u.sp st)).update (setSp_script ..) (setSp_mem ..)

theorem StoresIn.pull16 (h : StoresIn A s u) (st : Stack) : StoresIn A s (pull16 st u).2 := (h.pull8 st).pull8 st

theorem StoresIn.pullList (h : StoresIn A s u) (st : Stack) (p : Byte) : StoresIn A s (pullList st p u) := by
  cases st
  · rw [pullList_s_quiet h.script]; exact h.update rfl rfl
  · rw [pullList_u_quiet h.script]; exact h.update rfl rfl

theorem StoresIn.enterVector (h : StoresIn A s u) (v : Word) (m : Byte) : StoresIn A s (enterVector v m u) := by
  rw [enterVector_quiet h.script]; exact h.update rfl rfl

end steps

/-! ### The shared meanings -/

section shapes

variable {A : List Word} {s t : State}

theorem complete_storesIn {u : State} (k : complete u = .next t) (h : StoresIn A s u) : StoresIn A s t := by
  obtain ⟨rfl, -⟩ := complete_next k
  exact h.update rfl rfl

theorem settle_storesIn {u : State} (k : settle u = .next t) (h : StoresIn A s u) : StoresIn A s t := by
  obtain ⟨rfl, -⟩ := settle_next k
  exact h

theorem rmwMem_storesIn {op : Byte → Byte → Byte × Byte} {m : MemOp} (h : s.script = [])
    (k : rmwMem op m s = .next t) : StoresIn [eaOf m s] s t := by
  refine complete_storesIn k (StoresIn.writeCycle (StoresIn.filler ?_) (by simp [ea_quiet h]) _)
  exact (((StoresIn.refl h _).ea m).readCycle (ea m s).1).update rfl rfl

theorem store8_storesIn {f : State → Byte} {m : MemOp} (h : s.script = []) (k : store8 f m s = .next t) :
    StoresIn [eaOf m s] s t := by
  refine complete_storesIn k (StoresIn.writeCycle ?_ (by simp [ea_quiet h]) _)
  exact ((StoresIn.refl h _).ea m).update rfl rfl

theorem store16_storesIn {f : State → Word} {m : MemOp} (h : s.script = []) (k : store16 f m s = .next t) :
    StoresIn [eaOf m s, eaOf m s + 1#16] s t := by
  refine complete_storesIn k (StoresIn.writeWord ?_ (by simp [ea_quiet h]) (by simp [ea_quiet h]) _)
  exact ((StoresIn.refl h _).ea m).update rfl rfl

/-- R321: the byte after the skipped one. -/
theorem storeImm_storesIn {f : State → Word} (h : s.script = []) (k : storeImm f s = .next t) :
    StoresIn [s.pc + 1#16] s t := by
  unfold storeImm at k
  split at k
  · exact (refuse_next k).elim
  · refine complete_storesIn k (StoresIn.update (StoresIn.writeCycle ?_ (by simp) _) rfl rfl)
    exact ((StoresIn.refl h _).dummy s.pc).update rfl rfl

/-- PSHS and PSHU. -/
theorem push_storesIn {st : Stack} {p : Byte} (h : s.script = [])
    (k : complete (pushList st p (fillers 3 s)) = .next t) : StoresIn (pushAddrs (s.sp st) (listBytes p)) s t := by
  refine complete_storesIn k (((StoresIn.refl h _).fillers 3).pushList ?_)
  rw [fillers_quiet h]
  cases st <;> exact List.Subset.refl _

/-- The return address, in the two bytes below S. -/
theorem callTarget_storesIn {w sp : Word} {u : State} (k : callTarget w u = .next t) (hsp : u.s = sp)
    (h : StoresIn [sp - 1#16, sp - 2#16] s u) : StoresIn [sp - 1#16, sp - 2#16] s t := by
  subst hsp
  refine complete_storesIn k (StoresIn.update ((h.dummy w).filler.push16 ?_ _) rfl rfl)
  simp only [pushAddrs_succ, State.sp, filler_s, dummy_s]
  simp [pushAddrs, BitVec.sub_sub]

/-- R400: the entire frame of twelve bytes. -/
theorem softwareInterrupt_storesIn {v : Word} {m : Byte} (h : s.script = [])
    (k : softwareInterrupt v m s = .next t) : StoresIn (pushAddrs s.s 12) s t := by
  refine complete_storesIn k (StoresIn.enterVector (StoresIn.pushList ?_ ?_) v m)
  · exact ((StoresIn.refl h _).dummy s.pc).filler.update rfl rfl
  · simp [State.sp, show listBytes 0xFF#8 = 12 from rfl]

/-- R404: the entire frame. -/
theorem execCwai_storesIn {v : Byte} (h : s.script = []) (k : execCwai v s = .next t) :
    StoresIn (pushAddrs s.s 12) s t := by
  refine settle_storesIn k (StoresIn.update (StoresIn.pushList (p := 0xFF#8) (st := .s) ?_ ?_) rfl rfl)
  · refine StoresIn.filler (StoresIn.dummy ?_ _)
    exact (StoresIn.refl h _).update rfl rfl
  · simp [State.sp, show listBytes 0xFF#8 = 12 from rfl]

theorem inhA_storesIn {op : Byte → Byte → Byte × Byte} (h : s.script = []) (k : inhA op s = .next t) :
    StoresIn A s t := complete_storesIn k (((StoresIn.refl h _).dummy s.pc).update rfl rfl)

theorem inhB_storesIn {op : Byte → Byte → Byte × Byte} (h : s.script = []) (k : inhB op s = .next t) :
    StoresIn A s t := complete_storesIn k (((StoresIn.refl h _).dummy s.pc).update rfl rfl)

theorem tstMem_storesIn {m : MemOp} (h : s.script = []) (k : tstMem m s = .next t) : StoresIn A s t := by
  refine complete_storesIn k (StoresIn.fillers ?_ 2)
  exact (((StoresIn.refl h _).ea m).readCycle (ea m s).1).update rfl rfl

/-- The two-operand accumulator instructions: an operand, then registers. -/
theorem operand8_storesIn {o : Src8} {u : State} (h : s.script = []) (k : complete u = .next t)
    (hs : u.script = (operand8 o s).2.script) (hm : u.mem = (operand8 o s).2.mem) : StoresIn A s t :=
  complete_storesIn k (((StoresIn.refl h _).operand8 o).update hs hm)

theorem arithD_storesIn {op : Byte → Word → Word → Word × Byte} {o : Src16} (h : s.script = [])
    (k : arithD op o s = .next t) : StoresIn A s t := by
  refine complete_storesIn k (StoresIn.filler ?_)
  exact ((StoresIn.refl h _).operand16 o).update rfl rfl

theorem compare16_storesIn {f : State → Word} {o : Src16} (h : s.script = []) (k : compare16 f o s = .next t) :
    StoresIn A s t := by
  refine complete_storesIn k (StoresIn.filler ?_)
  exact ((StoresIn.refl h _).operand16 o).update rfl rfl

theorem load16_storesIn {f : Word → State → State} {o : Src16} (h : s.script = []) (k : load16 f o s = .next t)
    (hs : ∀ v u, (f v u).script = u.script) (hm : ∀ v u, (f v u).mem = u.mem) : StoresIn A s t := by
  refine complete_storesIn k (StoresIn.update ?_ (hs _ _) (hm _ _))
  exact ((StoresIn.refl h _).operand16 o).update rfl rfl

theorem lea_storesIn {f : Word → State → State} {x : Indexed} (h : s.script = []) (k : lea f x s = .next t)
    (hs : ∀ v u, (f v u).script = u.script) (hm : ∀ v u, (f v u).mem = u.mem) : StoresIn A s t :=
  complete_storesIn k (((StoresIn.refl h _).eaIndexed x).update (hs _ _) (hm _ _)).filler

theorem execTfr_storesIn {r1 r2 : TReg} (h : s.script = []) (k : execTfr r1 r2 s = .next t) : StoresIn A s t := by
  unfold execTfr at k
  split at k
  · exact (refuse_next k).elim
  · exact complete_storesIn k (((StoresIn.refl h _).fillers 4).tregWrite _ _)

theorem execExg_storesIn {r1 r2 : TReg} (h : s.script = []) (k : execExg r1 r2 s = .next t) : StoresIn A s t := by
  unfold execExg at k
  split at k
  · exact (refuse_next k).elim
  · exact complete_storesIn k ((((StoresIn.refl h _).fillers 6).tregWrite _ _).tregWrite _ _)

theorem execAndccDup_storesIn {v : Byte} (h : s.script = []) (k : execAndccDup v s = .next t) : StoresIn A s t := by
  unfold execAndccDup at k
  split at k
  · exact (refuse_next k).elim
  · refine complete_storesIn k (StoresIn.fillers ?_ 2)
    exact (StoresIn.refl h _).update rfl rfl

theorem shortBranch_storesIn {c : Cond} {off : Byte} (h : s.script = []) (k : shortBranch c off s = .next t) :
    StoresIn A s t := by
  refine complete_storesIn k ?_
  split
  · exact (StoresIn.refl h _).filler.update rfl rfl
  · exact (StoresIn.refl h _).filler

theorem longBranch_storesIn {c : Cond} {off : Word} (h : s.script = []) (k : longBranch c off s = .next t) :
    StoresIn A s t := by
  unfold longBranch at k
  dsimp only at k
  split at k
  · exact complete_storesIn k ((StoresIn.refl h _).filler.filler.update rfl rfl)
  · exact complete_storesIn k (StoresIn.refl h _).filler

theorem returnFromInterrupt_storesIn (h : s.script = []) (k : returnFromInterrupt s = .next t) : StoresIn A s t := by
  refine complete_storesIn k (StoresIn.filler (StoresIn.pullList ?_ _ _))
  exact (((StoresIn.refl h _).dummy s.pc).pull8 .s).update rfl rfl

theorem undefinedByte_storesIn (h : s.script = []) (k : undefinedByte s = .next t) : StoresIn A s t := by
  unfold undefinedByte at k
  split at k
  · exact settle_storesIn k ((StoresIn.refl h _).update rfl rfl)
  · exact (refuse_next k).elim

end shapes

/-- Every instruction stores to the addresses `storedTo` lists, and to no other. -/
theorem exec_storesIn {i : Instr} {s t : State} (h : s.script = []) (k : exec i s = .next t) :
    StoresIn (storedTo i s) s t := by
  have quiet : ∀ A, StoresIn A s s := StoresIn.refl h
  cases i <;> dsimp only [exec, storedTo] at k ⊢
  case neg | negDup | negcom | com | lsr | lsrDup | ror | asr | asl | rol | dec | decDup | inc | clr =>
    exact rmwMem_storesIn h k
  case sta | stb => exact store8_storesIn h k
  case std | stx | sty | stu | sts => exact store16_storesIn h k
  case stxImm | stuImm => exact storeImm_storesIn h k
  case pshs => exact push_storesIn (st := .s) h k
  case pshu => exact push_storesIn (st := .u) h k
  case swi | swi2 | swi3 | resetIll => exact softwareInterrupt_storesIn h k
  case cwai => exact execCwai_storesIn h k
  case bsr => exact callTarget_storesIn k (filler_s s) (quiet _).filler
  case lbsr => exact callTarget_storesIn k (fillers_s 2 s) ((quiet _).fillers 2)
  case jsr m => exact callTarget_storesIn k (by simp [ea_quiet h]) ((quiet _).ea m)
  case tst => exact tstMem_storesIn h k
  case nega | negaDup | negcoma | coma | lsra | lsraDup | rora | asra | asla | rola | deca | decaDup | inca | clra |
      clraDup =>
    exact inhA_storesIn h k
  case tsta => exact inhA_storesIn (op := Flags.opTst) h k
  case negb | negbDup | negcomb | comb | lsrb | lsrbDup | rorb | asrb | aslb | rolb | decb | decbDup | incb | clrb |
      clrbDup =>
    exact inhB_storesIn h k
  case tstb => exact inhB_storesIn (op := Flags.opTst) h k
  case suba | sbca | anda | lda | eora | ora | adda | adca | cmpa | bita | subb | sbcb | andb | ldb | eorb | orb |
      addb | adcb | cmpb | bitb =>
    exact operand8_storesIn h k rfl rfl
  case discard => exact complete_storesIn k ((quiet _).update rfl rfl)
  case addd | subd => exact arithD_storesIn h k
  case cmpd | cmpx | cmpy | cmpu | cmps => exact compare16_storesIn h k
  case ldd | ldx | ldy | ldu | lds => exact load16_storesIn h k (fun _ _ => rfl) (fun _ _ => rfl)
  case leax | leay | leas | leau => exact lea_storesIn h k (fun _ _ => rfl) (fun _ _ => rfl)
  case abx | ccshift =>
    refine complete_storesIn k (StoresIn.filler ?_)
    exact ((quiet _).dummy s.pc).update rfl rfl
  case mul =>
    refine complete_storesIn k (StoresIn.fillers ?_ 9)
    exact ((quiet _).dummy s.pc).update rfl rfl
  case sex | daa => exact complete_storesIn k (((quiet _).dummy s.pc).update rfl rfl)
  case tfr => exact execTfr_storesIn h k
  case exg => exact execExg_storesIn h k
  case puls | pulu => exact complete_storesIn k (((quiet _).fillers 2).pullList _ _).filler
  case andcc | orcc =>
    refine complete_storesIn k (StoresIn.filler ?_)
    exact (quiet _).update rfl rfl
  case nop | nopDup => exact complete_storesIn k ((quiet _).dummy s.pc)
  case andccDup => exact execAndccDup_storesIn h k
  case bra | brn | bhi | bls | bcc | bcs | bne | beq | bvc | bvs | bpl | bmi | bge | blt | bgt | ble =>
    exact shortBranch_storesIn h k
  case lbrn | lbhi | lbls | lbcc | lbcs | lbne | lbeq | lbvc | lbvs | lbpl | lbmi | lbge | lblt | lbgt | lble =>
    exact longBranch_storesIn h k
  case lbra => exact complete_storesIn k (((quiet _).fillers 2).update rfl rfl)
  case jmp m => exact complete_storesIn k (((quiet _).ea m).update rfl rfl)
  case rts =>
    refine complete_storesIn k (StoresIn.filler ?_)
    exact (((quiet _).dummy s.pc).pull16 .s).update rfl rfl
  case rti => exact returnFromInterrupt_storesIn h k
  case sync => exact settle_storesIn k (((quiet _).dummy s.pc).filler.update rfl rfl)
  case hcf | page2Prefix | page3Prefix => exact settle_storesIn k ((quiet _).update rfl rfl)
  case page2Undefined | page3Undefined => exact undefinedByte_storesIn h k

/-- Settles O25, by the addresses each instruction stores to. -/
theorem memoryFrame : Obligations.MemoryFrame := fun _ _ _ h k => (exec_storesIn h.1 k).mem

end Sys2Proof.Machine
end

section
/-! SUPPORT. The statements of 41_acc8.md: the two-operand flag computations, the accumulator instructions with every
source operand, the stores, and DISCARD. -/

namespace Sys2Proof.Machine

/-! ### The two-operand primitives (R260 to R267) -/

/-- Writing a flag keeps every mask that does not take it in. -/
theorem setCc_and {k : CcBit} {m : Byte} (hm : (1#8 <<< k.pos) &&& m = 0#8) (b : Bool) (cc : Byte) :
    setCc k b cc &&& m = cc &&& m := by
  cases b with
  | true => simp [setCc, BitVec.and_or_distrib_right, hm]
  | false =>
    have hmask : ~~~(1#8 <<< k.pos) &&& m = m := by revert m; cases k <;> decide
    simp [setCc, BitVec.and_assoc, hmask]

@[simp] theorem nzvc_half (r : Byte) (v c : Bool) (cc : Byte) : getCc .h (nzvc r v c cc) = getCc .h cc := by simp [nzvc]

/-- Bit 7 is the sign: set, it says that `a` and `b` have different signs, and `c` and `d` too. -/
theorem xor_and_xor_getLsbD_seven (a b c d : Byte) : ((a ^^^ b) &&& (c ^^^ d)).getLsbD 7 = true ↔
    ¬(a.toInt < 0 ↔ b.toInt < 0) ∧ ¬(c.toInt < 0 ↔ d.toInt < 0) := by
  have sign : ∀ v : Byte, v.getLsbD 7 = decide (v.toInt < 0) := fun v =>
    (BitVec.msb_eq_getLsbD_last v).symm.trans BitVec.msb_eq_toInt
  rw [BitVec.getLsbD_and, BitVec.getLsbD_xor, BitVec.getLsbD_xor]
  simp only [sign, Bool.and_eq_true, bne_iff_ne, ne_eq, decide_eq_decide]

/-- The sign of a number wrapped to a byte, where it is wrapped at most once. -/
theorem toInt_ofInt_neg_iff {n : ℤ} (hlo : -256 ≤ n) (hhi : n < 256) :
    (BitVec.ofInt 8 n).toInt < 0 ↔ -128 ≤ n ∧ n < 0 ∨ 128 ≤ n := by
  rw [BitVec.toInt_ofInt, Int.bmod_def]
  split <;> omega

theorem byte_toInt_range (v : Byte) : -128 ≤ v.toInt ∧ v.toInt < 128 := ⟨v.le_toInt, v.toInt_lt⟩

/-- The V formula of an addition is signed overflow: the operands have one sign and the result has the other. -/
theorem add_overflow (a b : Byte) {k : Nat} (hk : k ≤ 1) {r : Byte} (hr : r = BitVec.ofInt 8 (a.toInt + b.toInt + k)) :
    ((a ^^^ r) &&& (b ^^^ r)).getLsbD 7 =
      decide (a.toInt + b.toInt + k < -128 ∨ 127 < a.toInt + b.toInt + k) := by
  have ha := byte_toInt_range a
  have hb := byte_toInt_range b
  rw [Bool.eq_iff_iff, xor_and_xor_getLsbD_seven, hr, toInt_ofInt_neg_iff (by omega) (by omega), decide_eq_true_eq]
  omega

/-- The V formula of a subtraction is signed overflow: the operands have two signs and the result has the second's. -/
theorem sub_overflow (a b : Byte) {k : Nat} (hk : k ≤ 1) {r : Byte} (hr : r = BitVec.ofInt 8 (a.toInt - b.toInt - k)) :
    ((a ^^^ b) &&& (a ^^^ r)).getLsbD 7 =
      decide (a.toInt - b.toInt - k < -128 ∨ 127 < a.toInt - b.toInt - k) := by
  have ha := byte_toInt_range a
  have hb := byte_toInt_range b
  rw [Bool.eq_iff_iff, xor_and_xor_getLsbD_seven, hr, toInt_ofInt_neg_iff (by omega) (by omega), decide_eq_true_eq]
  omega

/-- The H formula of an addition is the carry out of bit 3. -/
theorem add_halfCarry (a b : Byte) (c : Bool) :
    (a ^^^ b ^^^ (a + b + BitVec.ofNat 8 c.toNat)).getLsbD 4 =
      decide (16 ≤ a.toNat % 16 + b.toNat % 16 + c.toNat) := by
  have hc : BitVec.ofNat 8 c.toNat = (BitVec.ofBool c).setWidth 8 := by cases c <;> rfl
  have hsum : (a + b + BitVec.ofNat 8 c.toNat).getLsbD 4 = (a.getLsbD 4 ^^ (b.getLsbD 4 ^^ BitVec.carry 4 a b c)) :=
    hc ▸ BitVec.getLsbD_add_add_bool (by decide) a b c
  rw [BitVec.getLsbD_xor, BitVec.getLsbD_xor, hsum]
  change _ = BitVec.carry 4 a b c
  cases a.getLsbD 4 <;> cases b.getLsbD 4 <;> simp

namespace Flags

/-- R262, R263: the sum of two bytes and a carry in, with its flags. -/
def addWith (c : Bool) (cc a b : Byte) : Byte × Byte :=
  let r := a + b + BitVec.ofNat 8 c.toNat
  (r, nzvc r (((a ^^^ r) &&& (b ^^^ r)).getLsbD 7) (0xFF < a.toNat + b.toNat + c.toNat)
    (setCc .h ((a ^^^ b ^^^ r).getLsbD 4) cc))

/-- R260, R261: the difference of two bytes and a borrow in, with its flags. -/
def subWith (c : Bool) (cc a b : Byte) : Byte × Byte :=
  let r := a - b - BitVec.ofNat 8 c.toNat
  (r, nzvc r (((a ^^^ b) &&& (a ^^^ r)).getLsbD 7) (a.toNat < b.toNat + c.toNat) cc)

theorem opAdd8_eq (cc a b : Byte) : opAdd8 cc a b = addWith false cc a b := by simp [opAdd8, addWith, nzvc]

theorem opAdc8_eq (cc a b : Byte) : opAdc8 cc a b = addWith (getCc .c cc) cc a b := rfl

theorem opSub8_eq (cc a b : Byte) : opSub8 cc a b = subWith false cc a b := by simp [opSub8, subWith, nzvc]

theorem opSbc8_eq (cc a b : Byte) : opSbc8 cc a b = subWith (getCc .c cc) cc a b := rfl

theorem addWith_flags (c : Bool) (cc a b : Byte) :
    let q := addWith c cc a b
    q.1 = BitVec.ofNat 8 (a.toNat + b.toNat + c.toNat) ∧
    getCc .c q.2 = decide (256 ≤ a.toNat + b.toNat + c.toNat) ∧
    getCc .h q.2 = decide (16 ≤ a.toNat % 16 + b.toNat % 16 + c.toNat) ∧
    getCc .v q.2 = decide (a.toInt + b.toInt + c.toNat < -128 ∨ 127 < a.toInt + b.toInt + c.toNat) ∧
    getCc .n q.2 = q.1.getLsbD 7 ∧ getCc .z q.2 = (q.1 == 0#8) ∧ q.2 &&& 0xD0#8 = cc &&& 0xD0#8 := by
  obtain ⟨hn, hz, hv, hc, -⟩ := nzvc_flags ..
  have hr : a + b + BitVec.ofNat 8 c.toNat = BitVec.ofInt 8 (a.toInt + b.toInt + c.toNat) := by
    simp [BitVec.ofInt_add]
  refine ⟨by simp [addWith, BitVec.ofNat_add], hc, ?_, hv.trans (add_overflow a b c.toNat_le hr), hn, hz, ?_⟩
  · rw [addWith, nzvc_half, getCc_setCc_same, add_halfCarry]
  · simp (disch := decide) only [addWith, nzvc, setVc, setNz8, setCc_and]

theorem subWith_flags (c : Bool) (cc a b : Byte) :
    let q := subWith c cc a b
    q.1 = BitVec.ofInt 8 (a.toInt - b.toInt - c.toNat) ∧
    getCc .c q.2 = decide (a.toNat < b.toNat + c.toNat) ∧
    getCc .v q.2 = decide (a.toInt - b.toInt - c.toNat < -128 ∨ 127 < a.toInt - b.toInt - c.toNat) ∧
    getCc .n q.2 = q.1.getLsbD 7 ∧ getCc .z q.2 = (q.1 == 0#8) ∧ q.2 &&& 0xF0#8 = cc &&& 0xF0#8 := by
  obtain ⟨hn, hz, hv, hc, hu⟩ := nzvc_flags ..
  have hr : a - b - BitVec.ofNat 8 c.toNat = BitVec.ofInt 8 (a.toInt - b.toInt - c.toNat) := by
    simp [Int.sub_eq_add_neg, BitVec.sub_eq_add_neg, BitVec.ofInt_add, BitVec.ofInt_neg]
  exact ⟨hr, hc, hv.trans (sub_overflow a b c.toNat_le hr), hn, hz, hu⟩

theorem opLd8_flags (cc r : Byte) :
    let q := opLd8 cc r
    q.1 = r ∧ getCc .n q.2 = r.getLsbD 7 ∧ getCc .z q.2 = (r == 0#8) ∧ getCc .v q.2 = false ∧
      q.2 &&& 0xF1#8 = cc &&& 0xF1#8 := by
  obtain ⟨hn, hz, hv, -, -⟩ := nzvc_flags r false (getCc .c cc) cc
  rw [← setV_eq_nzvc] at hn hz hv
  exact ⟨rfl, hn, hz, hv, by simp (disch := decide) only [opLd8, setNz8, setCc_and]⟩

/-- R292, as masks. -/
theorem discardCc_eq (cc : Byte) : discardCc cc = (cc &&& 0xF1#8) ||| 0x08#8 := by revert cc; decide

end Flags

/-- Settles O27: each addition is `addWith` and each subtraction `subWith`, at carry in clear or C; the logical
operations and the load are `opLd8` of their result. -/
theorem twoOperandFlags : Obligations.TwoOperandFlags := by
  intro cc a b c
  have hcarry : c = (getCc .c cc).toNat := by cases h : getCc .c cc <;> simp [c, h]
  refine ⟨fun op k hmem => ?_, fun op k hmem => ?_, fun op r hmem => ?_⟩
  · obtain ⟨d, hop, rfl⟩ : ∃ d, op cc a b = Flags.addWith d cc a b ∧ k = d.toNat := by
      simp only [List.mem_cons, List.not_mem_nil, or_false, Prod.mk.injEq] at hmem
      rcases hmem with ⟨rfl, rfl⟩ | ⟨rfl, rfl⟩
      · exact ⟨false, Flags.opAdd8_eq cc a b, rfl⟩
      · exact ⟨getCc .c cc, Flags.opAdc8_eq cc a b, hcarry⟩
    exact hop ▸ Flags.addWith_flags d cc a b
  · obtain ⟨d, hop, rfl⟩ : ∃ d, op cc a b = Flags.subWith d cc a b ∧ k = d.toNat := by
      simp only [List.mem_cons, List.not_mem_nil, or_false, Prod.mk.injEq] at hmem
      rcases hmem with ⟨rfl, rfl⟩ | ⟨rfl, rfl⟩
      · exact ⟨false, Flags.opSub8_eq cc a b, rfl⟩
      · exact ⟨getCc .c cc, Flags.opSbc8_eq cc a b, hcarry⟩
    exact hop ▸ Flags.subWith_flags d cc a b
  · have hop : op cc a b = Flags.opLd8 cc r := by
      simp only [List.mem_cons, List.not_mem_nil, or_false, Prod.mk.injEq] at hmem
      rcases hmem with ⟨rfl, rfl⟩ | ⟨rfl, rfl⟩ | ⟨rfl, rfl⟩ | ⟨rfl, rfl⟩ <;> rfl
    exact hop ▸ Flags.opLd8_flags cc r

/-! ### The shared meanings under a host that does not interfere (R268, R269) -/

section quiet

variable {s : State} (op : Byte → Byte → Byte → Byte × Byte) (o : Src8)

theorem accA_quiet (h : s.Quiet) :
    accA op o s = .next { ((src8Regs o s).after (src8Bus o s)).done with
      a := (op s.cc s.a (src8Value o s)).1, cc := (op s.cc s.a (src8Value o s)).2 } := by
  obtain ⟨hscript, hfault⟩ := h
  simp [accA, operand8_quiet hscript, complete_quiet, hfault, State.done]

theorem accB_quiet (h : s.Quiet) :
    accB op o s = .next { ((src8Regs o s).after (src8Bus o s)).done with
      b := (op s.cc s.b (src8Value o s)).1, cc := (op s.cc s.b (src8Value o s)).2 } := by
  obtain ⟨hscript, hfault⟩ := h
  simp [accB, operand8_quiet hscript, complete_quiet, hfault, State.done]

theorem testA_quiet (h : s.Quiet) :
    testA op o s = .next { ((src8Regs o s).after (src8Bus o s)).done with
      cc := (op s.cc s.a (src8Value o s)).2 } := by
  obtain ⟨hscript, hfault⟩ := h
  simp [testA, operand8_quiet hscript, complete_quiet, hfault, State.done]

theorem testB_quiet (h : s.Quiet) :
    testB op o s = .next { ((src8Regs o s).after (src8Bus o s)).done with
      cc := (op s.cc s.b (src8Value o s)).2 } := by
  obtain ⟨hscript, hfault⟩ := h
  simp [testB, operand8_quiet hscript, complete_quiet, hfault, State.done]

/-- R269, for a register the operand's update and its bus cycles do not change. -/
theorem store8_quiet (h : s.Quiet) (m : MemOp) {f : State → Byte}
    (hf : f ((eaRegs m s).after (eaBus m s)) = f s) :
    store8 f m s = .next { ((eaRegs m s).after (eaBus m s ++ [.write (eaOf m s) (f s)])).done with
      cc := (Flags.opLd8 s.cc (f s)).2, mem := s.mem.write (eaOf m s).toNat (f s) } := by
  obtain ⟨hscript, hfault⟩ := h
  simp only [store8, ea_quiet hscript, hf]
  simp [writeCycle_quiet, hscript, complete_quiet, hfault, State.after, State.done, BitVec.ofNat_add, BitVec.add_assoc]

end quiet

/-- Settles O32: the eight pairs that write their accumulator are `accA` and `accB`, CMP and BIT `testA` and `testB`. -/
theorem accumulator8 : Obligations.Accumulator8 := by
  intro o s h v t
  refine ⟨fun ia ib op hmem => ?_, fun ia ib op hmem => ?_⟩
  · obtain ⟨onA, onB⟩ : exec (ia o) s = accA op o s ∧ exec (ib o) s = accB op o s := by
      simp only [List.mem_cons, List.not_mem_nil, or_false, Prod.mk.injEq] at hmem
      rcases hmem with ⟨rfl, rfl, rfl⟩ | ⟨rfl, rfl, rfl⟩ | ⟨rfl, rfl, rfl⟩ | ⟨rfl, rfl, rfl⟩ | ⟨rfl, rfl, rfl⟩ |
        ⟨rfl, rfl, rfl⟩ | ⟨rfl, rfl, rfl⟩ | ⟨rfl, rfl, rfl⟩ <;> exact ⟨rfl, rfl⟩
    exact ⟨onA.trans (accA_quiet op o h), onB.trans (accB_quiet op o h)⟩
  · obtain ⟨onA, onB⟩ : exec (ia o) s = testA op o s ∧ exec (ib o) s = testB op o s := by
      simp only [List.mem_cons, List.not_mem_nil, or_false, Prod.mk.injEq] at hmem
      rcases hmem with ⟨rfl, rfl, rfl⟩ | ⟨rfl, rfl, rfl⟩ <;> exact ⟨rfl, rfl⟩
    exact ⟨onA.trans (testA_quiet op o h), onB.trans (testB_quiet op o h)⟩

/-- Settles O34: no callout is made, and the three bits `discardCc` writes are the mask. -/
theorem discard : Obligations.Discard := fun _ _ s h =>
  (complete_quiet (s := { s with cc := Flags.discardCc s.cc }) h.2).trans (by rw [Flags.discardCc_eq]; rfl)

end Sys2Proof.Machine

namespace Sys2Proof

open Machine

/-- Settles O33: no memory operand's update changes A or B. -/
theorem store8 : Obligations.Store8 := fun m _ h =>
  ⟨store8_quiet h m (f := State.a) (by simp), store8_quiet h m (f := State.b) (by simp)⟩

end Sys2Proof
end

section
/-! SUPPORT. The statements of 42_reg16.md: the 16-bit flag computations and DAA's, the instructions on 16-bit registers
with every operand, the effective-address loads, the register arithmetic, and the illegal immediate stores. -/

namespace Sys2Proof.Machine

/-! ### The 16-bit primitives (R300 to R302) -/

/-- CC with N and Z of the 16-bit result `r`, and V and C as given. -/
def nzvc16 (r : Word) (v c : Bool) (cc : Byte) : Byte := setVc v c (setNz16 r cc)

theorem nzvc16_flags (r : Word) (v c : Bool) (cc : Byte) :
    getCc .n (nzvc16 r v c cc) = r.getLsbD 15 ∧ getCc .z (nzvc16 r v c cc) = (r == 0#16) ∧
      getCc .v (nzvc16 r v c cc) = v ∧ getCc .c (nzvc16 r v c cc) = c ∧ nzvc16 r v c cc &&& 0xF0#8 = cc &&& 0xF0#8 := by
  refine ⟨?_, ?_, ?_, ?_, ?_⟩
  · simp [nzvc16, setVc, setNz16, getCc_setCc]
  · simp [nzvc16, setVc, setNz16, getCc_setCc]
  · simp [nzvc16, setVc, getCc_setCc]
  · simp [nzvc16, setVc]
  · simp (disch := decide) only [nzvc16, setVc, setNz16, setCc_and]

/-- Bit 15 is the sign. -/
theorem getLsbD_fifteen (w : Word) : w.getLsbD 15 = w.msb := w.msb_eq_getLsbD_last.symm

/-- The V formula of a 16-bit addition is signed overflow. -/
theorem add16_overflow (a b : Word) : ((a ^^^ (a + b)) &&& (b ^^^ (a + b))).getLsbD 15 =
    decide (a.toInt + b.toInt < -32768 ∨ 32767 < a.toInt + b.toInt) := by
  have formula : ((a ^^^ (a + b)) &&& (b ^^^ (a + b))).getLsbD 15 = a.saddOverflow b := by
    rw [BitVec.saddOverflow_eq, getLsbD_fifteen, BitVec.msb_and, BitVec.msb_xor, BitVec.msb_xor]
    cases a.msb <;> cases b.msb <;> cases (a + b).msb <;> rfl
  rw [formula, BitVec.saddOverflow, Bool.eq_iff_iff]
  simp only [Bool.or_eq_true, decide_eq_true_eq]
  omega

/-- The V formula of a 16-bit subtraction is signed overflow. -/
theorem sub16_overflow (a b : Word) : ((a ^^^ b) &&& (a ^^^ (a - b))).getLsbD 15 =
    decide (a.toInt - b.toInt < -32768 ∨ 32767 < a.toInt - b.toInt) := by
  have formula : ((a ^^^ b) &&& (a ^^^ (a - b))).getLsbD 15 = a.ssubOverflow b := by
    rw [BitVec.ssubOverflow_eq, getLsbD_fifteen, BitVec.msb_and, BitVec.msb_xor, BitVec.msb_xor]
    cases a.msb <;> cases b.msb <;> cases (a - b).msb <;> rfl
  rw [formula, BitVec.ssubOverflow, Bool.eq_iff_iff]
  simp only [Bool.or_eq_true, decide_eq_true_eq]
  omega

theorem zext8_eq_ofNat (n : Byte) : zext8 n = BitVec.ofNat 16 n.toNat := (BitVec.ofNat_toNat 16 n).symm

namespace Flags

/-- R302 writes V and not C. -/
theorem opLd16_eq (cc : Byte) (v : Word) : opLd16 cc v = (v, nzvc16 v false (getCc .c cc) cc) := by
  rw [opLd16, nzvc16, setVc, setCc_of_getCc (k := .c) (by simp [setNz16, getCc_setCc])]

/-- R329 clears V, and keeps a C that is set. -/
theorem opDaa_eq (cc a : Byte) :
    let t := a.toNat + daaCorrection cc a
    opDaa cc a = (BitVec.ofNat 8 t, nzvc (BitVec.ofNat 8 t) false (getCc .c cc || decide (256 ≤ t)) cc) := rfl

/-- R327: the product of two bytes fits a word. -/
theorem opMul_eq (cc a b : Byte) :
    let d := BitVec.ofNat 16 (a.toNat * b.toNat)
    opMul cc a b = (d, setCc .c (d.getLsbD 7) (setCc .z (d == 0#16) cc)) := by
  have hd : zext8 a * zext8 b = BitVec.ofNat 16 (a.toNat * b.toNat) := by
    rw [zext8_eq_ofNat, zext8_eq_ofNat, BitVec.ofNat_mul]
  simp only [opMul, hd]

/-- R328: the sign and the zero of the extended byte are the byte's. -/
theorem opSex_eq (cc b : Byte) :
    opSex cc b = (joinBytes (if b.getLsbD 7 then 0xFF#8 else 0x00#8) b,
      setCc .z (b == 0#8) (setCc .n (b.getLsbD 7) cc)) := by
  have hn : (joinBytes (if b.getLsbD 7 then 0xFF#8 else 0x00#8) b).getLsbD 15 = b.getLsbD 7 := by
    rw [getLsbD_joinBytes]
    cases b.getLsbD 7 <;> rfl
  have hz : (joinBytes (if b.getLsbD 7 then 0xFF#8 else 0x00#8) b == 0#16) = (b == 0#8) := by
    rw [Bool.eq_iff_iff, beq_iff_eq, beq_iff_eq]
    refine ⟨fun h => ?_, fun h => by subst h; rfl⟩
    exact (loByte_joinBytes _ b).symm.trans (congrArg loByte h)
  simp only [opSex, setNz16, hn, hz]

end Flags

/-- Settles O28: each primitive is its result with N and Z of it; V is signed overflow in the library's sense. -/
theorem word16Flags : Obligations.Word16Flags := by
  intro cc a b
  obtain ⟨addN, addZ, addV, addC, addUpper⟩ := nzvc16_flags (a + b) (((a ^^^ (a + b)) &&& (b ^^^ (a + b))).getLsbD 15)
    (0xFFFF < a.toNat + b.toNat) cc
  obtain ⟨subN, subZ, subV, subC, subUpper⟩ := nzvc16_flags (a - b) (((a ^^^ b) &&& (a ^^^ (a - b))).getLsbD 15)
    (a.toNat < b.toNat) cc
  obtain ⟨ldN, ldZ, ldV, ldC, ldUpper⟩ := nzvc16_flags a false (getCc .c cc) cc
  have sum : a + b = BitVec.ofNat 16 (a.toNat + b.toNat) := by simp [BitVec.ofNat_add]
  have difference : a - b = BitVec.ofInt 16 (a.toInt - b.toInt) := by
    simp [Int.sub_eq_add_neg, BitVec.sub_eq_add_neg, BitVec.ofInt_add, BitVec.ofInt_neg]
  rw [Flags.opLd16_eq]
  refine ⟨sum, addC, addV.trans (add16_overflow a b), difference, subC, subV.trans (sub16_overflow a b),
    rfl, ldV, ldC, ?_⟩
  simp only [List.forall_mem_cons]
  exact ⟨⟨addN, addZ, addUpper⟩, ⟨subN, subZ, subUpper⟩, ⟨ldN, ldZ, ldUpper⟩, by simp⟩

/-- Settles O29: the correction is the table's, and the flags are those of the corrected byte. -/
theorem daaFlags : Obligations.DaaFlags := by
  intro cc a lo hi t q
  have correction : a.toNat + Flags.daaCorrection cc a = t := by
    simp [Flags.daaCorrection, t, lo, hi, Nat.add_assoc, or_assoc]
  have row : q = (BitVec.ofNat 8 t, nzvc (BitVec.ofNat 8 t) false (getCc .c cc || decide (256 ≤ t)) cc) :=
    correction ▸ Flags.opDaa_eq cc a
  rw [row]
  exact ⟨rfl, nzvc_flags ..⟩

/-! ### Rules the instructions of this family share -/

theorem State.after_cons (o : Obs) (os : List Obs) (s : State) : s.after (o :: os) = (s.after [o]).after os := by simp

/-- The last fillers, under a host that does not interfere, after an update that leaves memory as it was in `s`. -/
theorem complete_fillers_quiet {s u : State} (hscript : u.script = []) (hfault : u.hostFault = none)
    (hmem : u.mem = s.mem) (n : Nat) : complete (fillers n u) = .next (u.after (List.replicate n s.fill)).done := by
  rw [fillers_quiet hscript, State.fill_of_mem hmem]
  exact complete_quiet hfault

theorem complete_filler_quiet {s u : State} (hscript : u.script = []) (hfault : u.hostFault = none)
    (hmem : u.mem = s.mem) : complete (filler u) = .next (u.after [s.fill]).done :=
  complete_fillers_quiet hscript hfault hmem 1

@[simp] theorem src16Regs_d (o : Src16) (s : State) : (src16Regs o s).d = s.d := by simp [State.d]

/-- R321 with `REFUSE`, whatever the host would do later. -/
theorem storeImm_refused {s : State} {f : State → Word} (hfault : s.hostFault = none)
    (hp : s.params.illegalUncertain = .refuse) : storeImm f s = .refused .illegalUncertain := by
  simp only [storeImm, hp]
  exact refuse_quiet hfault _

/-! ### The shared meanings under a host that does not interfere (R303 to R325) -/

section quiet

variable {s : State} (h : s.Quiet)

include h

/-- R304, R305. -/
theorem arithD_quiet (op : Byte → Word → Word → Word × Byte) (o : Src16) :
    let q := op s.cc (joinBytes s.a s.b) (src16Value o s)
    arithD op o s = .next { ((src16Regs o s).after (src16Bus o s ++ [s.fill])).done with
      a := hiByte q.1, b := loByte q.1, cc := q.2 } := by
  obtain ⟨hscript, hfault⟩ := h
  have hd : ((src16Regs o s).after (src16Bus o s)).d = s.d := src16Regs_d o s
  simp only [arithD, operand16_quiet hscript, hd, after_cc, src16Regs_cc]
  rw [complete_filler_quiet (s := s) (by simpa) (by simpa) (by simp), ← State.after_after]
  rfl

/-- R306 to R310, for a register that no bus cycle changes. -/
theorem compare16_quiet (o : Src16) {f : State → Word}
    (hf : f ((src16Regs o s).after (src16Bus o s)) = f (src16Regs o s)) :
    compare16 f o s = .next { ((src16Regs o s).after (src16Bus o s ++ [s.fill])).done with
      cc := (Flags.opSub16 s.cc (f (src16Regs o s)) (src16Value o s)).2 } := by
  obtain ⟨hscript, hfault⟩ := h
  simp only [compare16, operand16_quiet hscript, hf, after_cc, src16Regs_cc]
  rw [complete_filler_quiet (s := s) (by simpa) (by simpa) (by simp), ← State.after_after]
  rfl

/-- R311 to R315, for any update that raises no fault: it is the last to write. -/
theorem load16_quiet (o : Src16) {f : Word → State → State} (hf : ∀ v t, (f v t).hostFault = t.hostFault) :
    load16 f o s = .next (f (src16Value o s) { (src16Regs o s).after (src16Bus o s) with
      cc := (Flags.opLd16 s.cc (src16Value o s)).2 }).done := by
  obtain ⟨hscript, hfault⟩ := h
  simp only [load16, operand16_quiet hscript, after_cc, src16Regs_cc]
  exact complete_quiet (by simpa [hf])

/-- R316 to R320, for a register that no bus cycle changes: its flags before the operand's update, its value after. -/
theorem store16_quiet (m : MemOp) {f : State → Word} (hf : f ((eaRegs m s).after (eaBus m s)) = f (eaRegs m s)) :
    let v := f (eaRegs m s)
    store16 f m s = .next
      { ((eaRegs m s).after
          (eaBus m s ++ [.write (eaOf m s) (hiByte v), .write (eaOf m s + 1#16) (loByte v)])).done with
        cc := (Flags.opLd16 s.cc (f s)).2,
        mem := (s.mem.write (eaOf m s).toNat (hiByte v)).write (eaOf m s + 1#16).toNat (loByte v) } := by
  obtain ⟨hscript, hfault⟩ := h
  simp only [store16, ea_quiet hscript, hf]
  rw [writeWord_quiet (by simpa), complete_quiet (by simpa), ← State.after_after]
  simp only [after_mem, eaRegs_mem]
  rfl

/-- R322 to R325, for an update that touches registers only. -/
theorem lea_quiet (x : Indexed) {f : Word → State → State}
    (hf : ∀ v t, (f v t).script = t.script ∧ (f v t).hostFault = t.hostFault ∧ (f v t).mem = t.mem) :
    lea f x s = .next ((f (indexedEa x s) ((formRegs x s).after (indexedBus x s))).after [s.fill]).done := by
  obtain ⟨hscript, hfault⟩ := h
  obtain ⟨keepsScript, keepsFault, keepsMem⟩ := hf (indexedEa x s) ((formRegs x s).after (indexedBus x s))
  simp only [lea, eaIndexed_quiet hscript]
  exact complete_filler_quiet (keepsScript.trans (by simpa)) (keepsFault.trans (by simpa)) (keepsMem.trans (by simp))

/-- R321 with `AS_SPECIFIED`, for a register that neither the skipped byte's cycle nor PC changes. -/
theorem storeImm_quiet {f : State → Word} (hf : f { s.after [s.look s.pc] with pc := s.pc + 1#16 } = f s)
    (hp : s.params.illegalUncertain = .asSpecified) :
    storeImm f s = .next { (s.after [s.look s.pc, .write (s.pc + 1#16) (loByte (f s))]).done with
      pc := s.pc + 2#16, cc := (s.cc &&& 0xF1#8) ||| 0x08#8,
      mem := s.mem.write (s.pc + 1#16).toNat (loByte (f s)) } := by
  obtain ⟨hscript, hfault⟩ := h
  have hpc : s.pc + 1#16 + 1#16 = s.pc + 2#16 := BitVec.add_assoc ..
  simp only [storeImm, hp, dummy_quiet hscript, after_pc, hf]
  rw [writeCycle_quiet (by simpa), complete_quiet (by simpa)]
  simp [State.after, State.done, hpc, Flags.discardCc_eq, BitVec.add_assoc]

end quiet

/-- Settles O35: both are R304's shape. -/
theorem arithmeticD : Obligations.ArithmeticD := by
  intro i op hmem o s h
  have shape : exec (i o) s = arithD op o s := by
    simp only [List.mem_cons, List.not_mem_nil, or_false, Prod.mk.injEq] at hmem
    rcases hmem with ⟨rfl, rfl⟩ | ⟨rfl, rfl⟩ <;> rfl
  exact shape.trans (arithD_quiet h op o)

/-- Settles O40: each update is of registers only. -/
theorem loadEffectiveAddress : Obligations.LoadEffectiveAddress := by
  intro x s h t ea
  have bus : t = (((formRegs x s).after (indexedBus x s)).after [s.fill]).done := by rw [State.after_after]
  rw [bus, ← formRegs_cc x s]
  refine ⟨?_, ?_, ?_, ?_⟩
  · exact lea_quiet h x (f := fun v s => { s with x := v, cc := setCc .z (v == 0#16) s.cc }) fun _ _ => ⟨rfl, rfl, rfl⟩
  · exact lea_quiet h x (f := fun v s => { s with y := v, cc := setCc .z (v == 0#16) s.cc }) fun _ _ => ⟨rfl, rfl, rfl⟩
  · exact lea_quiet h x (f := State.loadS) fun _ _ => ⟨rfl, rfl, rfl⟩
  · exact lea_quiet h x (f := fun v s => { s with u := v }) fun _ _ => ⟨rfl, rfl, rfl⟩

/-- Settles O39: neither X nor U is changed before the low byte is written. -/
theorem illegalImmediateStores : Obligations.IllegalImmediateStores := by
  intro i r hmem s h
  obtain ⟨shape, hr⟩ : exec i s = storeImm r s ∧ r { s.after [s.look s.pc] with pc := s.pc + 1#16 } = r s := by
    simp only [List.mem_cons, List.not_mem_nil, or_false, Prod.mk.injEq] at hmem
    rcases hmem with ⟨rfl, rfl⟩ | ⟨rfl, rfl⟩ <;> exact ⟨rfl, rfl⟩
  rw [shape]
  exact ⟨storeImm_quiet h hr, storeImm_refused h.2⟩

/-! ### Register arithmetic (R326 to R329) -/

/-- Settles O41: each is a dummy read at PC, the primitive, and its fillers. -/
theorem registerArithmetic : Obligations.RegisterArithmetic := by
  rintro s ⟨hscript, hfault⟩
  rw [State.after_cons (s.look s.pc) [s.fill], State.after_cons (s.look s.pc) (List.replicate 9 s.fill)]
  refine ⟨?_, ?_, ?_, ?_⟩
  · change execAbx s = _
    simp only [execAbx, dummy_quiet hscript, after_x, after_b, zext8_eq_ofNat]
    exact complete_filler_quiet hscript hfault rfl
  · intro d
    change execMul s = _
    simp only [execMul, dummy_quiet hscript, after_cc, after_a, after_b, Flags.opMul_eq]
    exact complete_fillers_quiet (by simpa) (by simpa) (by simp) 9
  · change execSex s = _
    simp only [execSex, dummy_quiet hscript, after_cc, after_b, Flags.opSex_eq, State.setD, hiByte_joinBytes,
      loByte_joinBytes]
    exact complete_quiet hfault
  · change execDaa s = _
    simp only [execDaa, dummy_quiet hscript]
    exact complete_quiet hfault

/-! ### The refusal of the illegal opcodes (R321, R355) -/

/-- The fetch of a byte in whose callout the host makes no move, whatever it would do in a later one. -/
theorem fetchByte_of_idle {s : State} {later : List (List HostMove)} (h : s.script = [] :: later) :
    fetchByte s = (s.byteAt s.pc, { s.after [s.look s.pc] with pc := s.pc + 1#16, script := later }) := by
  simp [fetchByte, readCycle, callout, h, State.tick_eq_after, State.after, State.byteAt, State.look]

/-- An instruction of one byte is executed once that byte is fetched. -/
theorem runInstruction_of_inh {pg : Page} {s : State} {i : Instr} (h : refusedAtOpcode pg s = false)
    (hs : shapeOf pg (fetchByte s).1 = .inh i) :
    runInstruction pg s =
      exec i { (fetchByte s).2 with opcode := some (fetchByte s).1, postbyte := none, operand := [] } := by
  have hfetch : fetchInstr pg s = ([(fetchByte s).1],
      { (fetchByte s).2 with opcode := some (fetchByte s).1, postbyte := none, operand := [] }) := by
    simp [fetchInstr, fetchRest, hs]
  have hd : decode pg (fetchInstr pg s).1 = .ok (i, []) := by simp [hfetch, decode, hs, decodeShape]
  rw [runInstruction_of_decode h hd, hfetch]

/-- Settles O59: 0x38 is refused as an opcode; the other two are instructions of one byte, whose meaning refuses. -/
theorem illegalRefusedAtOpcode : Obligations.IllegalRefusedAtOpcode := by
  intro s later hphase hfault hparam hop hscript
  rw [step_of_fetchPhase (pg := .page0) hphase, if_pos rfl]
  have hfetch := fetchByte_of_idle (s := hookFetch s) hscript
  have hopcode : (fetchByte (hookFetch s)).1 = s.byteAt s.pc := by rw [hfetch]; rfl
  have hp : (hookFetch s).params.illegalUncertain = .refuse := hparam
  have hrefused : refusedAtOpcode .page0 (hookFetch s) = (s.byteAt s.pc == 0x38#8) := by
    simp [refusedAtOpcode, hopcode, hp]
  have store : ∀ {i : Instr} {f : State → Word}, (∀ u, exec i u = storeImm f u) →
      shapeOf .page0 (s.byteAt s.pc) = .inh i → (s.byteAt s.pc == 0x38#8) = false →
      runInstruction .page0 (hookFetch s) = .refused .illegalUncertain := by
    intro i f meaning hs hne
    rw [runInstruction_of_inh (hrefused.trans hne) (hopcode ▸ hs), meaning, hfetch]
    exact storeImm_refused hfault hp
  simp only [List.mem_cons, List.not_mem_nil, or_false] at hop
  rcases hop with h38 | h8F | hCF
  · rw [runInstruction, if_pos (by simp [hrefused, h38]), hfetch]
    exact refuse_quiet hfault _
  · exact store (i := .stxImm) (f := State.x) (fun _ => rfl) (by rw [h8F]; rfl) (by rw [h8F]; rfl)
  · exact store (i := .stuImm) (f := State.u) (fun _ => rfl) (by rw [hCF]; rfl) (by rw [hCF]; rfl)

end Sys2Proof.Machine

namespace Sys2Proof

open Machine

/-- Settles O36: no compare's register is changed by a bus cycle. -/
theorem compare16 : Obligations.Compare16 := by
  intro i r hmem o s h
  obtain ⟨shape, hr⟩ : exec (i o) s = Machine.compare16 r o s ∧
      r ((src16Regs o s).after (src16Bus o s)) = r (src16Regs o s) := by
    simp only [List.mem_cons, List.not_mem_nil, or_false, Prod.mk.injEq] at hmem
    rcases hmem with ⟨rfl, rfl⟩ | ⟨rfl, rfl⟩ | ⟨rfl, rfl⟩ | ⟨rfl, rfl⟩ | ⟨rfl, rfl⟩ <;> exact ⟨rfl, rfl⟩
  exact shape.trans (compare16_quiet h o hr)

/-- Settles O37: no register update breaks a precondition of the host, and each is the last write of its load. -/
theorem load16 : Obligations.Load16 := fun o _ h =>
  ⟨load16_quiet h o (f := State.setD) fun _ _ => rfl,
    load16_quiet h o (f := fun v s => { s with x := v }) fun _ _ => rfl,
    load16_quiet h o (f := fun v s => { s with y := v }) fun _ _ => rfl,
    load16_quiet h o (f := fun v s => { s with u := v }) fun _ _ => rfl,
    load16_quiet h o (f := State.loadS) fun _ _ => rfl⟩

/-- Settles O38: no store's register is changed by a bus cycle. -/
theorem store16 : Obligations.Store16 := by
  intro i r hmem m s h
  obtain ⟨shape, hr⟩ : exec (i m) s = Machine.store16 r m s ∧ r ((eaRegs m s).after (eaBus m s)) = r (eaRegs m s) := by
    simp only [List.mem_cons, List.not_mem_nil, or_false, Prod.mk.injEq] at hmem
    rcases hmem with ⟨rfl, rfl⟩ | ⟨rfl, rfl⟩ | ⟨rfl, rfl⟩ | ⟨rfl, rfl⟩ | ⟨rfl, rfl⟩ <;> exact ⟨rfl, rfl⟩
  exact shape.trans (store16_quiet h m hr)

end Sys2Proof
end

section
/-! SUPPORT. The statements about transfers, the stacks and the condition-code instructions (spec 43_transfer_stack.md):
register codes, and what a pull finds where a push left it. -/

namespace Sys2Proof.Machine

/-! ### Register transfers (R340 to R344) -/

@[simp] theorem tregWrite_hostFault (r : TReg) (v : Word) (s : State) :
    (tregWrite r v s).hostFault = s.hostFault := by cases r <;> rfl

/-- The end of an instruction touches no register. -/
theorem tregWrite_done (r : TReg) (v : Word) (s : State) : (tregWrite r v s).done = tregWrite r v s.done := by
  cases r <;> rfl

theorem pairRefused_eq_false {r1 r2 : TReg} {s : State}
    (h : regular r1 r2 = true ∨ s.params.tfrUndefined = .asXroar) : pairRefused r1 r2 s = false := by
  rcases h with h | h <;> simp [pairRefused, h]

theorem pairRefused_eq_true {r1 r2 : TReg} {s : State} (h : regular r1 r2 = false)
    (hp : s.params.tfrUndefined = .refuse) : pairRefused r1 r2 s = true := by simp [pairRefused, h, hp]

/-- Settles O42: a register write neither needs nor breaks anything the end of an instruction touches. -/
theorem transferExchange : Obligations.TransferExchange := by
  rintro r1 r2 s ⟨hscript, hfault⟩
  refine ⟨fun hruns => ?_, fun hirregular hparam => ?_⟩
  · have hpair := pairRefused_eq_false hruns
    constructor
    · change execTfr r1 r2 s = _
      rw [execTfr, hpair, if_neg Bool.false_ne_true, fillers_quiet hscript, complete_quiet (by simpa), tregWrite_done]
    · change execExg r1 r2 s = _
      rw [execExg, hpair, if_neg Bool.false_ne_true, fillers_quiet hscript, complete_quiet (by simpa), tregWrite_done,
        tregWrite_done]
  · have hpair := pairRefused_eq_true hirregular hparam
    exact ⟨(if_pos hpair).trans (refuse_quiet hfault _), (if_pos hpair).trans (refuse_quiet hfault _)⟩

/-- Settles O43: the three parts are R341's column, R342's column, and the codes that name no register. -/
theorem transferValues : Obligations.TransferValues := by
  refine ⟨fun s => ?_, fun v s => ?_, fun r v s hr => ?_⟩
  · simp [tregRead, State.d]
  · simp [tregWrite, State.setD, State.loadS]
  · simp only [List.mem_cons, List.not_mem_nil, or_false] at hr
    rcases hr with rfl | rfl | rfl | rfl | rfl | rfl <;> exact ⟨rfl, rfl⟩

/-! ### Condition-code instructions (R350 to R355) -/

/-- R354: bit 4 moves to bit 5, bit 1 to bit 2, and nothing else is kept. -/
theorem Flags.ccShift_eq (cc : Byte) :
    Flags.ccShift cc = (if getCc .i cc then 0x20#8 else 0#8) ||| (if getCc .v cc then 0x04#8 else 0#8) := by
  revert cc; decide

/-- Settles O46: each is an update of CC and its bus cycles, which no update of CC disturbs. -/
theorem conditionCodeInstructions : Obligations.ConditionCodeInstructions := by
  rintro v s ⟨hscript, hfault⟩
  refine ⟨complete_filler_quiet hscript hfault rfl, complete_filler_quiet hscript hfault rfl, ?_, ?_, ?_, ?_, ?_⟩
  · change complete (dummy s.pc s) = _
    rw [dummy_quiet hscript]
    exact complete_quiet hfault
  · change complete (dummy s.pc s) = _
    rw [dummy_quiet hscript]
    exact complete_quiet hfault
  · change execCcshift s = _
    rw [State.after_cons, execCcshift, dummy_quiet hscript, ← Flags.ccShift_eq]
    exact complete_filler_quiet hscript hfault rfl
  · intro hparam
    change execAndccDup v s = _
    simp only [execAndccDup, hparam]
    exact complete_fillers_quiet (u := { s with cc := s.cc &&& v }) hscript hfault rfl 2
  · intro hparam
    change execAndccDup v s = _
    simp only [execAndccDup, hparam]
    exact refuse_quiet hfault _

/-! ### Register lists (R345 to R349) -/

/-- R346, R348. -/
theorem push_quiet {s : State} (h : s.Quiet) (st : Stack) (p : Byte) :
    complete (pushList st p (fillers 3 s)) = .next (pushed st p (s.after (List.replicate 3 s.fill))).done := by
  obtain ⟨hscript, hfault⟩ := h
  rw [fillers_quiet hscript, pushList_quiet (by simpa)]
  exact complete_quiet (by simpa)

/-- Settles O44: the fillers, the list pushed or pulled, and the last filler of a pull. -/
theorem pushPull : Obligations.PushPull := by
  intro p s h
  have ⟨hscript, hfault⟩ := h
  refine ⟨push_quiet h .s p, push_quiet h .u p, ?_, ?_⟩
  · change complete (filler (pullList .s p (fillers 2 s))) = _
    rw [fillers_quiet hscript, pullList_s_quiet (by simpa)]
    exact complete_filler_quiet hscript hfault rfl
  · change complete (filler (pullList .u p (fillers 2 s))) = _
    rw [fillers_quiet hscript, pullList_u_quiet (by simpa)]
    exact complete_filler_quiet hscript hfault rfl

/-! ### A pull finds what a push left (R347) -/

/-- The bytes a bit of a register list stands for (R141), in the order they are pushed. The last case is bit 7: a list
names no bit above it. -/
def listRegister (st : Stack) (s : State) : Nat → List Byte
  | 0 => [s.cc]
  | 1 => [s.a]
  | 2 => [s.b]
  | 3 => [s.dp]
  | 4 => [loByte s.x, hiByte s.x]
  | 5 => [loByte s.y, hiByte s.y]
  | 6 => [loByte (s.otherSp st), hiByte (s.otherSp st)]
  | _ => [loByte s.pc, hiByte s.pc]

/-- The last bytes a push of the list `p` writes: those of the registers of the bits below `k`. -/
def pushBelow (st : Stack) (p : Byte) (s : State) : Nat → List Byte
  | 0 => []
  | k + 1 => (if p.getLsbD k then listRegister st s k else []) ++ pushBelow st p s k

theorem listRegister_length (st : Stack) (s : State) (k : Nat) :
    (listRegister st s k).length = if k < 4 then 1 else 2 := by
  match k with
  | 0 | 1 | 2 | 3 | 4 | 5 | 6 => rfl
  | k + 7 => exact (if_neg (by omega)).symm

theorem pushBelow_length (st : Stack) (p : Byte) (s : State) (k : Nat) :
    (pushBelow st p s k).length = listOffset p k := by
  induction k with
  | zero => rfl
  | succ k ih =>
    rw [pushBelow, listOffset_succ, List.length_append, ih, apply_ite List.length, listRegister_length,
      List.length_nil, Nat.add_comm]

theorem pushBelow_suffix (st : Stack) (p : Byte) (s : State) {j k : Nat} (h : j ≤ k) :
    pushBelow st p s j <:+ pushBelow st p s k := by
  induction h with
  | refl => exact List.suffix_rfl
  | step _ ih => exact ih.trans (List.suffix_append _ _)

theorem pushOrder_eq_pushBelow (st : Stack) (p : Byte) (s : State) : pushOrder st p s = pushBelow st p s 8 := by
  simp [pushOrder, pushBelow, listRegister]

/-- Where a register the list names stands among the bytes pushed: below it are the bytes of the lower bits. -/
theorem pushOrder_split (st : Stack) {p : Byte} (s : State) {k : Nat} (hp : p.getLsbD k = true) :
    ∃ high, pushOrder st p s = high ++ listRegister st s k ++ pushBelow st p s k := by
  have hk : k + 1 ≤ 8 := BitVec.lt_of_getLsbD hp
  obtain ⟨high, e⟩ := pushBelow_suffix st p s hk
  refine ⟨high, ?_⟩
  rw [pushOrder_eq_pushBelow, ← e, pushBelow, if_pos hp, List.append_assoc]

/-- The full list is four bytes and four words. -/
theorem listBytes_le (p : Byte) : listBytes p ≤ 12 := by revert p; decide

/-- A byte pushed is found above the bytes pushed after it, which do not reach it around the address space. -/
theorem read_pushMem (m : Memory) (sp : Word) (high : List Byte) (v : Byte) (low : List Byte)
    (hlow : low.length < 65536) :
    (pushMem m sp (high ++ v :: low)).read
      (sp - BitVec.ofNat 16 (high ++ v :: low).length + BitVec.ofNat 16 low.length).toNat = v := by
  obtain ⟨top, htop⟩ : ∃ top, top = sp - BitVec.ofNat 16 high.length := ⟨_, rfl⟩
  have haddr : sp - BitVec.ofNat 16 (high ++ v :: low).length + BitVec.ofNat 16 low.length = top - 1#16 := by
    rw [List.length_append, List.length_cons, BitVec.ofNat_add, BitVec.ofNat_add, htop]
    ring
  have hout : top - 1#16 ∉ pushAddrs (top - 1#16) low.length := by
    simp only [pushAddrs, List.mem_map, List.mem_range, not_exists, not_and]
    intro k hk e
    bv_omega
  rw [haddr, pushMem_append, ← htop]
  exact ((Memory.SameOutside.refl _ _).pushMem (List.Subset.refl _) _ hout).trans (Memory.read_write_same ..)

/-- In `u`, the stack `st` is as a push of the list `p` in `s` left it. -/
structure StackHolds (st : Stack) (p : Byte) (s u : State) : Prop where
  mem : u.mem = pushMem s.mem (s.sp st) (pushOrder st p s)
  sp : u.sp st = s.sp st - BitVec.ofNat 16 (listBytes p)

namespace StackHolds

variable {st : Stack} {p : Byte} {s u : State} (h : StackHolds st p s u)
include h

theorem byteAt {high low : List Byte} {v : Byte} (e : pushOrder st p s = high ++ v :: low) :
    u.byteAt (u.sp st + BitVec.ofNat 16 low.length) = v := by
  have hlen : (pushOrder st p s).length ≤ 12 := pushOrder_length st p s ▸ listBytes_le p
  have hlow : low.length < 65536 := by
    rw [e, List.length_append, List.length_cons] at hlen
    omega
  rw [State.byteAt, h.mem, h.sp, ← pushOrder_length st p s, e]
  exact read_pushMem _ _ _ _ _ hlow

theorem pulledByte {k : Nat} {v : Byte} (hp : p.getLsbD k = true) (hv : listRegister st s k = [v]) :
    pulledByte st p k u = v := by
  obtain ⟨high, e⟩ := pushOrder_split st s hp
  rw [Machine.pulledByte, ← pushBelow_length st p s k]
  exact h.byteAt (high := high) (by simpa [hv] using e)

theorem pulledWord {k : Nat} {v : Word} (hp : p.getLsbD k = true) (hv : listRegister st s k = [loByte v, hiByte v]) :
    pulledWord st p k u = v := by
  obtain ⟨high, e⟩ := pushOrder_split st s hp
  have hhi := h.byteAt (high := high ++ [loByte v]) (v := hiByte v) (low := pushBelow st p s k) (by simpa [hv] using e)
  have hlo := h.byteAt (high := high) (v := loByte v) (low := hiByte v :: pushBelow st p s k) (by simpa [hv] using e)
  rw [List.length_cons, BitVec.ofNat_add, ← BitVec.add_assoc] at hlo
  rw [Machine.pulledWord, State.wordAt, ← pushBelow_length st p s k, hhi, hlo, joinBytes_hi_lo]

end StackHolds

/-- Settles O45: each register of the list is found where the push left it, and S steps back over the whole list. -/
theorem pushPullRoundTrip : Obligations.PushPullRoundTrip := by
  intro p s t u hs ht hu hmem hsp
  obtain ⟨push, -, -, -⟩ := pushPull p s hs
  obtain ⟨-, -, pull, -⟩ := pushPull p u hu
  obtain rfl : (pushed .s p (s.after (List.replicate 3 s.fill))).done = t := Host.Outcome.next.inj (push.symm.trans ht)
  have h : StackHolds .s p s (u.after [u.fill, u.fill]) := ⟨hmem, hsp⟩
  have hback : u.s + BitVec.ofNat 16 (listBytes p) = s.s := by
    rw [show u.s = s.s - BitVec.ofNat 16 (listBytes p) from h.sp, BitVec.sub_add_cancel]
  exact ⟨_, pull, hback,
    fun hp => (if_pos hp).trans (h.pulledByte hp rfl), fun hp => (if_pos hp).trans (h.pulledByte hp rfl),
    fun hp => (if_pos hp).trans (h.pulledByte hp rfl), fun hp => (if_pos hp).trans (h.pulledByte hp rfl),
    fun hp => (if_pos hp).trans (h.pulledWord hp rfl), fun hp => (if_pos hp).trans (h.pulledWord hp rfl),
    fun hp => (if_pos hp).trans (h.pulledWord hp rfl), fun hp => (if_pos hp).trans (h.pulledWord hp rfl)⟩

end Sys2Proof.Machine
end

section
/-! SUPPORT. The statements about branches, jumps and calls (spec 44_control.md): the two shapes of a branch, and the
tail the three calls share. -/

namespace Sys2Proof.Machine

/-! ### Calls (R379, R396, R398) -/

/-- A word pushed on S. -/
theorem push16_s_quiet {s : State} (h : s.script = []) (v : Word) :
    push16 .s v s = { s.after [.write (s.s - 1#16) (loByte v), .write (s.s - 2#16) (hiByte v)] with
      s := s.s - 2#16,
      mem := (s.mem.write (s.s - 1#16).toNat (loByte v)).write (s.s - 2#16).toNat (hiByte v) } := by
  have htwo : s.s - 1#16 - 1#16 = s.s - 2#16 := BitVec.sub_sub ..
  rw [push16_quiet h]
  simp [pushBytes, pushBus, pushMem, State.setSp, State.sp, State.after, htwo]

/-- The tail of a call: PC is pushed, and the target takes its place. -/
theorem callTarget_quiet {s : State} (h : s.Quiet) (target : Word) :
    callTarget target s = .next
      { (s.after [s.look target, s.fill, .write (s.s - 1#16) (loByte s.pc),
          .write (s.s - 2#16) (hiByte s.pc)]).done with
        s := s.s - 2#16, pc := target,
        mem := (s.mem.write (s.s - 1#16).toNat (loByte s.pc)).write (s.s - 2#16).toNat (hiByte s.pc) } := by
  obtain ⟨hscript, hfault⟩ := h
  have bus : ∀ o p : Obs, s.after [s.look target, s.fill, o, p] =
      ((s.after [s.look target]).after [s.fill]).after [o, p] := by simp
  rw [callTarget, dummy_quiet hscript, filler_quiet (by simpa), push16_s_quiet (by simpa), bus]
  exact complete_quiet hfault

/-- Settles O49: the three calls are one tail, after their own way to the target; that way leaves memory and PC. -/
theorem calls : Obligations.Calls := by
  intro i s r pre target h hcall
  have ⟨hscript, hfault⟩ := h
  obtain ⟨shape, hr, hmem, hpc⟩ : exec i s = callTarget target (r.after pre) ∧ r.Quiet ∧ r.mem = s.mem ∧
      r.pc = s.pc := by
    rcases hcall with ⟨off, rfl, rfl, rfl, rfl⟩ | ⟨off, rfl, rfl, rfl, rfl⟩ | ⟨m, rfl, rfl, rfl, rfl⟩
    · exact ⟨congrArg (callTarget _) (fillers_quiet hscript 2), h, rfl, rfl⟩
    · exact ⟨congrArg (callTarget _) (filler_quiet hscript), h, rfl, rfl⟩
    · refine ⟨?_, ⟨by simpa, by simpa⟩, eaRegs_mem m s, eaRegs_pc m s⟩
      change execJsr m s = _
      rw [execJsr, ea_quiet hscript]
  rw [shape, callTarget_quiet (s := r.after pre) hr, State.after_after]
  simp [State.look_of_mem hmem, State.fill_of_mem hmem, hmem, hpc]

/-! ### Branches (R360, R361, R380)

Five conditions as comparisons of N and V, or of C and Z together; the others are the flags themselves. -/

theorem Cond.holds_hi (cc : Byte) : Cond.hi.holds cc = !(getCc .c cc || getCc .z cc) := (Bool.not_or ..).symm

theorem Cond.holds_lt (cc : Byte) : Cond.lt.holds cc = (getCc .n cc != getCc .v cc) :=
  (congrFun₂ Bool.bne_eq_xor ..).symm

theorem Cond.holds_ge (cc : Byte) : Cond.ge.holds cc = (getCc .n cc == getCc .v cc) :=
  (congrArg (!·) (Cond.holds_lt cc)).trans (Bool.not_not _)

theorem Cond.holds_gt (cc : Byte) : Cond.gt.holds cc = (!getCc .z cc && getCc .n cc == getCc .v cc) :=
  congrArg (!getCc .z cc && ·) (Cond.holds_ge cc)

theorem Cond.holds_le (cc : Byte) : Cond.le.holds cc = (getCc .z cc || getCc .n cc != getCc .v cc) :=
  congrArg (getCc .z cc || ·) (Cond.holds_lt cc)

/-- R361. -/
theorem shortBranch_quiet {s : State} (h : s.Quiet) (c : Cond) (off : Byte) :
    shortBranch c off s = .next { (s.after [s.fill]).done with
      pc := if c.holds s.cc then s.pc + BitVec.ofInt 16 off.toInt else s.pc } := by
  obtain ⟨hscript, hfault⟩ := h
  simp only [shortBranch, filler_quiet hscript, after_cc]
  split
  · exact complete_quiet hfault
  · exact complete_quiet hfault

/-- R380. -/
theorem longBranch_quiet {s : State} (h : s.Quiet) (c : Cond) (off : Word) :
    longBranch c off s = .next { (s.after (if c.holds s.cc then [s.fill, s.fill] else [s.fill])).done with
      pc := if c.holds s.cc then s.pc + off else s.pc } := by
  obtain ⟨hscript, hfault⟩ := h
  simp only [longBranch, filler_quiet hscript, after_cc]
  split
  · rw [filler_quiet (by simpa), State.after_after]
    exact complete_quiet hfault
  · exact complete_quiet hfault

/-- Settles O47: each branch is the shape of its length, on the condition of its name. -/
theorem branches : Obligations.Branches := by
  intro s h n z v c
  refine ⟨fun i taken hmem => ?_, fun i taken hmem => ?_⟩
  · obtain ⟨cond, shape, e⟩ : ∃ cond : Cond, (∀ off, exec (i off) s = shortBranch cond off s) ∧
        cond.holds s.cc = taken := by
      simp only [List.mem_cons, List.not_mem_nil, or_false, Prod.mk.injEq] at hmem
      rcases hmem with ⟨rfl, rfl⟩ | ⟨rfl, rfl⟩ | ⟨rfl, rfl⟩ | ⟨rfl, rfl⟩ | ⟨rfl, rfl⟩ | ⟨rfl, rfl⟩ | ⟨rfl, rfl⟩ |
        ⟨rfl, rfl⟩ | ⟨rfl, rfl⟩ | ⟨rfl, rfl⟩ | ⟨rfl, rfl⟩ | ⟨rfl, rfl⟩ | ⟨rfl, rfl⟩ | ⟨rfl, rfl⟩ | ⟨rfl, rfl⟩ |
        ⟨rfl, rfl⟩
      · exact ⟨.always, fun _ => rfl, rfl⟩
      · exact ⟨.never, fun _ => rfl, rfl⟩
      · exact ⟨.hi, fun _ => rfl, Cond.holds_hi _⟩
      · exact ⟨.ls, fun _ => rfl, rfl⟩
      · exact ⟨.cc, fun _ => rfl, rfl⟩
      · exact ⟨.cs, fun _ => rfl, rfl⟩
      · exact ⟨.ne, fun _ => rfl, rfl⟩
      · exact ⟨.eq, fun _ => rfl, rfl⟩
      · exact ⟨.vc, fun _ => rfl, rfl⟩
      · exact ⟨.vs, fun _ => rfl, rfl⟩
      · exact ⟨.pl, fun _ => rfl, rfl⟩
      · exact ⟨.mi, fun _ => rfl, rfl⟩
      · exact ⟨.ge, fun _ => rfl, Cond.holds_ge _⟩
      · exact ⟨.lt, fun _ => rfl, Cond.holds_lt _⟩
      · exact ⟨.gt, fun _ => rfl, Cond.holds_gt _⟩
      · exact ⟨.le, fun _ => rfl, Cond.holds_le _⟩
    intro off
    rw [shape, shortBranch_quiet h, e]
  · obtain ⟨cond, shape, e⟩ : ∃ cond : Cond, (∀ off, exec (i off) s = longBranch cond off s) ∧
        cond.holds s.cc = taken := by
      simp only [List.mem_cons, List.not_mem_nil, or_false, Prod.mk.injEq] at hmem
      rcases hmem with ⟨rfl, rfl⟩ | ⟨rfl, rfl⟩ | ⟨rfl, rfl⟩ | ⟨rfl, rfl⟩ | ⟨rfl, rfl⟩ | ⟨rfl, rfl⟩ | ⟨rfl, rfl⟩ |
        ⟨rfl, rfl⟩ | ⟨rfl, rfl⟩ | ⟨rfl, rfl⟩ | ⟨rfl, rfl⟩ | ⟨rfl, rfl⟩ | ⟨rfl, rfl⟩ | ⟨rfl, rfl⟩ | ⟨rfl, rfl⟩
      · exact ⟨.never, fun _ => rfl, rfl⟩
      · exact ⟨.hi, fun _ => rfl, Cond.holds_hi _⟩
      · exact ⟨.ls, fun _ => rfl, rfl⟩
      · exact ⟨.cc, fun _ => rfl, rfl⟩
      · exact ⟨.cs, fun _ => rfl, rfl⟩
      · exact ⟨.ne, fun _ => rfl, rfl⟩
      · exact ⟨.eq, fun _ => rfl, rfl⟩
      · exact ⟨.vc, fun _ => rfl, rfl⟩
      · exact ⟨.vs, fun _ => rfl, rfl⟩
      · exact ⟨.pl, fun _ => rfl, rfl⟩
      · exact ⟨.mi, fun _ => rfl, rfl⟩
      · exact ⟨.ge, fun _ => rfl, Cond.holds_ge _⟩
      · exact ⟨.lt, fun _ => rfl, Cond.holds_lt _⟩
      · exact ⟨.gt, fun _ => rfl, Cond.holds_gt _⟩
      · exact ⟨.le, fun _ => rfl, Cond.holds_le _⟩
    intro off
    rw [shape, longBranch_quiet h, e]

/-! ### Jumps (R378, R397, R399) -/

/-- Settles O48: the address is made, or the word pulled, before PC is written; the filler of RTS comes after it. -/
theorem jumps : Obligations.Jumps := by
  rintro off m s ⟨hscript, hfault⟩
  refine ⟨?_, ?_, ?_⟩
  · change execLbra off s = _
    rw [execLbra, fillers_quiet hscript]
    exact complete_quiet hfault
  · change execJmp m s = _
    rw [execJmp, ea_quiet hscript]
    exact complete_quiet (by simpa)
  · have bus : s.after [s.look s.pc, s.look s.s, s.look (s.s + 1#16), s.fill] =
        ((s.after [s.look s.pc]).after [s.look s.s, s.look (s.s + 1#16)]).after [s.fill] := by simp
    change execRts s = _
    rw [execRts, dummy_quiet hscript, pull16_quiet (by simpa), bus]
    exact complete_filler_quiet (s := s) hscript hfault rfl

end Sys2Proof.Machine
end

section
/-! SUPPORT. The statements about software interrupts, RTI and the waits (spec 45_system.md): the entry four opcodes
share, and RTI as the pull of one register list. -/

namespace Sys2Proof.Machine

/-- The two bus cycles SWI, CWAI and SYNC begin with. -/
theorem filler_dummy_quiet {s : State} (h : s.script = []) (a : Word) :
    filler (dummy a s) = s.after [s.look a, s.fill] := by
  rw [dummy_quiet h, filler_quiet (by simpa)]
  simp

/-! ### Software interrupts (R400 to R402, R406) -/

/-- R400. -/
theorem softwareInterrupt_quiet {s : State} (h : s.Quiet) (v : Word) (m : Byte) :
    softwareInterrupt v m s = .next
      (entered v m (pushed .s 0xFF#8 { s.after [s.look s.pc, s.fill] with cc := s.cc ||| 0x80#8 })).done := by
  obtain ⟨hscript, hfault⟩ := h
  change complete (enterVector v m (stackEntire (filler (dummy s.pc s)))) = _
  rw [filler_dummy_quiet hscript, stackEntire_quiet (by simpa), enterVector_quiet (by simpa)]
  exact complete_quiet (by simpa)

/-- Settles O50: the four are one operation, each with its own vector and masks. -/
theorem softwareInterrupts : Obligations.SoftwareInterrupts := by
  intro i v m hi s h
  have shape : exec i s = softwareInterrupt v m s := by
    simp only [List.mem_cons, List.not_mem_nil, or_false, Prod.mk.injEq] at hi
    rcases hi with ⟨rfl, rfl, rfl⟩ | ⟨rfl, rfl, rfl⟩ | ⟨rfl, rfl, rfl⟩ | ⟨rfl, rfl, rfl⟩ <;> rfl
  exact shape.trans (softwareInterrupt_quiet h v m)

/-! ### RTI (R403) -/

/-- CC is the first register of the entire frame and of the short one, so to pull it and then the rest is to pull the
list. -/
theorem pullList_cc_first (entire : Bool) (s : State) :
    pullList .s (if entire then 0xFF#8 else 0x81#8) s =
      pullList .s (if entire then 0xFE#8 else 0x80#8) { (pull8 .s s).2 with cc := (pull8 .s s).1 } := by
  cases entire
  · rfl
  · rfl

@[simp] theorem pulledS_mem (p : Byte) (s : State) : (pulledS p s).mem = s.mem := by simp only [pulledS, after_mem]

/-- R403: the list is chosen by the E of the byte at S. -/
theorem returnFromInterrupt_quiet {s : State} (h : s.Quiet) :
    returnFromInterrupt s = .next
      ((pulledS (if (s.byteAt s.s).getLsbD 7 then 0xFF#8 else 0x81#8) (s.after [s.look s.pc])).after [s.fill]).done := by
  obtain ⟨hscript, hfault⟩ := h
  have hcc : (pull8 .s (s.after [s.look s.pc])).1 = s.byteAt s.s := by
    rw [pull8_quiet (by simpa)]
    rfl
  rw [returnFromInterrupt, dummy_quiet hscript]
  dsimp only
  rw [← pullList_cc_first, hcc, pullList_s_quiet (by simpa)]
  exact complete_filler_quiet (by simpa) (by simpa) (by simp)

/-! ### From a software interrupt and back (R400, R403, R520) -/

theorem StackHolds.after {st : Stack} {p : Byte} {s u : State} (h : StackHolds st p s u) (l : List Obs) :
    StackHolds st p s (u.after l) := ⟨h.mem, by cases st <;> exact h.sp⟩

theorem entered_pushed_stackHolds (v : Word) (m p : Byte) (s : State) :
    StackHolds .s p s (entered v m (pushed .s p s)).done := ⟨rfl, rfl⟩

@[simp] theorem pushed_nmiArmed (st : Stack) (p : Byte) (s : State) : (pushed st p s).nmiArmed = s.nmiArmed := by
  cases st <;> rfl

@[simp] theorem entered_nmiArmed (v : Word) (m : Byte) (s : State) : (entered v m s).nmiArmed = s.nmiArmed := rfl

/-- A software interrupt leaves on S the entire frame of the registers as they were, E set in its CC. -/
theorem softwareInterrupt_stackHolds {s t : State} {v : Word} {m : Byte} (h : s.Quiet)
    (ht : softwareInterrupt v m s = .next t) :
    t.Quiet ∧ StackHolds .s 0xFF#8 { s.after [s.look s.pc, s.fill] with cc := s.cc ||| 0x80#8 } t ∧
      t.nmiArmed = s.nmiArmed := by
  rw [softwareInterrupt_quiet h] at ht
  obtain rfl := Host.Outcome.next.inj ht
  exact ⟨⟨by simpa using h.1, by simpa using h.2⟩, entered_pushed_stackHolds .., by simp⟩

/-- RTI, where S holds an entire frame with E set, pulls that frame. -/
theorem returnFromInterrupt_entire {s t : State} (h : t.Quiet) (hframe : StackHolds .s 0xFF#8 s t)
    (he : s.cc.getLsbD 7 = true) :
    returnFromInterrupt t = .next ((pulledS 0xFF#8 (t.after [t.look t.pc])).after [t.fill]).done := by
  have hcc : t.byteAt t.s = s.cc := by
    have hpulled := hframe.pulledByte (k := 0) (by decide) rfl
    rwa [pulledByte, listOffset_zero, BitVec.add_zero] at hpulled
  rw [returnFromInterrupt_quiet h, hcc, if_pos he]

/-- Settles O52: S holds the entire frame with E set when the handler is entered, so RTI finds each register where the
entry left it. -/
theorem swiRtiRoundTrip : Obligations.SwiRtiRoundTrip := by
  intro i hi s t h ht
  obtain ⟨v, m, hentry⟩ : ∃ v m, softwareInterrupt v m s = .next t := by
    simp only [List.mem_cons, List.not_mem_nil, or_false] at hi
    rcases hi with rfl | rfl | rfl | rfl <;> exact ⟨_, _, ht⟩
  obtain ⟨hquiet, hframe, harmed⟩ := softwareInterrupt_stackHolds h hentry
  have hpull := returnFromInterrupt_entire hquiet hframe (by simp)
  have hread := hframe.after [t.look t.pc]
  have hback : t.s + 12#16 = s.s := by
    rw [show t.s = s.s - 12#16 from hframe.sp, BitVec.sub_add_cancel]
  exact ⟨_, hpull, hread.pulledByte (by decide) rfl, hread.pulledByte (by decide) rfl,
    hread.pulledByte (by decide) rfl, hread.pulledByte (by decide) rfl, hread.pulledWord (by decide) rfl,
    hread.pulledWord (by decide) rfl, hread.pulledWord (by decide) rfl, hread.pulledWord (by decide) rfl, hback, harmed⟩

/-! ### CWAI, SYNC and the other states (R404, R405, R407 to R409) -/

/-- Settles O53: CC is made before the bus cycles, which neither read nor write it. -/
theorem cwai : Obligations.Cwai := by
  rintro n s ⟨hscript, hfault⟩
  have hframe : pushList .s 0xFF#8 (filler (dummy s.pc { s with cc := (s.cc &&& n) ||| 0x80#8 })) =
      pushed .s 0xFF#8 { s.after [s.look s.pc, s.fill] with cc := (s.cc &&& n) ||| 0x80#8 } := by
    rw [filler_dummy_quiet (by simpa), pushList_quiet (by simpa)]
    rfl
  change settle { pushList .s 0xFF#8 (filler (dummy s.pc { s with cc := (s.cc &&& n) ||| 0x80#8 })) with
    viaCwai := true, phase := .dispatchIrq } = _
  rw [hframe]
  exact settle_quiet (by simpa)

/-- Settles O54: SYNC after its two bus cycles, the others at once; the undefined bytes by their parameter. -/
theorem stateSetters : Obligations.StateSetters := by
  rintro op b s ⟨hscript, hfault⟩
  have lockup (hparam : s.params.page23Undefined = .hcf) : undefinedByte s = .next { s with phase := .hcf } := by
    simp only [undefinedByte, hparam]
    exact settle_quiet hfault
  have refused (hparam : s.params.page23Undefined = .refuse) : undefinedByte s = .refused .page23Undefined := by
    simp only [undefinedByte, hparam]
    exact refuse_quiet hfault _
  refine ⟨?_, settle_quiet hfault, settle_quiet hfault, settle_quiet hfault, fun hp => ⟨lockup hp, lockup hp⟩,
    fun hp => ⟨refused hp, refused hp⟩⟩
  change settle ((filler (dummy s.pc s)).goto .sync) = _
  rw [filler_dummy_quiet hscript]
  exact settle_quiet hfault

end Sys2Proof.Machine

namespace Sys2Proof

open Machine

/-- Settles O51: CC pulled and then the rest that its E chooses are the pull of one list. -/
theorem returnFromInterrupt : Obligations.ReturnFromInterrupt := fun _ h => returnFromInterrupt_quiet h

end Sys2Proof
end

section
/-! SUPPORT. The invariant of the machine (spec 60_exceptions.md R501, R524; 10_state.md R48, R50, R51): every step and
every move of the host between steps keeps it. -/

namespace Sys2Proof.Machine

/-! ### Carrying the invariant (R48, R524) -/

section keep

variable {s t u : State} (hi : s.Inv)
include hi

/-- After bus cycles and register updates, memory, the scheduler and NMI are as the invariant asks: what is left is the
CWAI wait. -/
theorem State.Inv.runs (h : Runs s u) (hm : t.mem = u.mem) (hs : t.sched = u.sched)
    (hr : t.nmiRequest = u.nmiRequest) (ha : t.nmiArmed = u.nmiArmed)
    (cwai : t.viaCwai = true → t.phase = .dispatchIrq ∨ t.phase = .cwaiCheckHalt)
    (dispatch : t.phase = .dispatchIrq → t.viaCwai = true ∨ t.irqSel ≠ none)
    (check : t.phase = .cwaiCheckHalt → t.viaCwai = true) : t.Inv where
  mem := hm ▸ h.wf hi.mem
  sched := hs ▸ h.consistent hi.sched
  nmi := by rw [hr, ha]; exact h.nmiReq hi.nmi
  cwai := cwai
  dispatch := dispatch
  check := check

/-- The same, where the machine is not in a CWAI wait and does not dispatch. -/
theorem State.Inv.runs_outside (h : Runs s u) (hm : t.mem = u.mem) (hs : t.sched = u.sched)
    (hr : t.nmiRequest = u.nmiRequest) (ha : t.nmiArmed = u.nmiArmed) (hv : t.viaCwai = false)
    (hd : t.phase ≠ .dispatchIrq) (hc : t.phase ≠ .cwaiCheckHalt) : t.Inv :=
  hi.runs h hm hs hr ha (fun k => absurd (hv.symm.trans k) Bool.false_ne_true) (fun k => absurd k hd)
    (fun k => absurd k hc)

/-- Moves of the host inside callouts reach neither the execution state nor what it depends on. -/
theorem State.Inv.kept (h : Kept s t) : t.Inv :=
  hi.runs h.runs rfl rfl rfl rfl (by rw [h.viaCwai, h.phase]; exact hi.cwai)
    (by rw [h.viaCwai, h.phase, h.irqSel]; exact hi.dispatch) (by rw [h.viaCwai, h.phase]; exact hi.check)

/-- Outside DISPATCH_IRQ and CWAI_CHECK_HALT the machine is in no CWAI wait. -/
theorem State.Inv.viaCwai_eq_false (hd : s.phase ≠ .dispatchIrq) (hc : s.phase ≠ .cwaiCheckHalt) :
    s.viaCwai = false :=
  Bool.eq_false_iff.mpr fun k => (hi.cwai k).elim hd hc

/-- However an instruction ends, begun outside a CWAI wait. -/
theorem State.Inv.ends (hv : s.viaCwai = false) (h : Ends s t) : t.Inv := by
  cases h with
  | done u h e =>
    subst e
    exact hi.runs_outside h rfl rfl rfl rfl (h.viaCwai.trans hv) (by simp) (by simp)
  | entry u h e =>
    subst e
    exact hi.runs_outside h rfl rfl rfl rfl rfl (by simp) (by simp)
  | goto u h p hp e =>
    subst e
    have hne : p ≠ .dispatchIrq ∧ p ≠ .cwaiCheckHalt := by constructor <;> rintro rfl <;> simp at hp
    exact hi.runs_outside h rfl rfl rfl rfl (h.viaCwai.trans hv) hne.1 hne.2
  | wait u h e =>
    subst e
    exact hi.runs h rfl rfl rfl rfl (fun _ => .inl rfl) (fun _ => .inl rfl) (fun k => nomatch k)

/-- Bus cycles and a move along R530's graph: an edge from a state of the CWAI wait that keeps the wait stays in it, and
an edge into one comes from the other or from itself. -/
theorem State.Inv.edge (h : Runs s u) {p : Phase}
    (stays : s.phase = .dispatchIrq ∨ s.phase = .cwaiCheckHalt → p = .dispatchIrq ∨ p = .cwaiCheckHalt)
    (enters : p = .dispatchIrq ∨ p = .cwaiCheckHalt → s.viaCwai = true) : (u.goto p).Inv :=
  hi.runs h rfl rfl rfl rfl (fun k => stays (hi.cwai (h.viaCwai.symm.trans k)))
    (fun k => .inl (h.viaCwai.trans (enters (.inl k)))) (fun k => h.viaCwai.trans (enters (.inr k)))

/-- Every way a step can end. -/
theorem State.Inv.stepEnds (h : StepEnds s t) : t.Inv := by
  cases h with
  | reset hp e =>
    subst e
    exact ⟨hi.mem, hi.sched, nofun, nofun, nofun, nofun⟩
  | instr h hp =>
    refine hi.ends (hi.viaCwai_eq_false ?_ ?_) h <;> rcases hp with hp | hp | hp <;> simp [hp]
  | entry u hp h e =>
    subst e
    exact hi.runs_outside h rfl rfl rfl rfl rfl nofun nofun
  | pick u hp h l e =>
    subst e
    exact hi.runs h rfl rfl rfl rfl nofun (fun _ => .inr nofun) nofun
  | goto u p h e hp hv =>
    subst e
    refine hi.edge h (fun hs => ?_) (fun hw => ?_)
    · rcases hs with hs | hs
      · exact .inr (by simpa [hs] using hp)
      · exact (by simpa [hs] using hp : p = .cwaiCheckHalt ∨ p = .dispatchIrq).symm
    · have hs : p = .cwaiCheckHalt ∧ s.phase = .dispatchIrq ∨ s.phase = .cwaiCheckHalt := by
        rcases hw with rfl | rfl <;> simpa using hp
      rcases hs with ⟨hc, hs⟩ | hs
      · exact hv hc hs
      · exact hi.check hs

end keep

/-- Settles O18, by what a step can do. -/
theorem stepKeepsInv : Obligations.StepKeepsInv := fun _ _ hi h => hi.stepEnds (step_ends h)

/-! ### The host between steps (R560) -/

theorem State.Inv.settle {s t : State} (hi : s.Inv) (h : settle s = .next t) : t.Inv := by
  obtain ⟨rfl, -⟩ := settle_next h
  exact hi

/-- R541: one turn of `run()` is a step, or nothing while `running` is clear. -/
theorem runSteps_one {s t : State} (h : runSteps 1 s = .next t) : step s = .next t ∨ t = s := by
  simp only [runSteps] at h
  split at h
  · split at h
    · next u hu => cases h; exact .inl hu
    · cases h
    · cases h
  · cases h; exact .inr rfl

/-- R553: popping the head is a move of the host, and the callback a callout. -/
theorem Kept.hostDispatch (l : ListId) (s : State) : Kept s (hostDispatch l s) := by
  unfold Machine.hostDispatch
  split
  · exact .refl s
  · exact (Kept.innerMove s (.dispatchNext l)).trans (Kept.callout _)

/-- Settles O20: `reset()` leaves the wait, `jump` sets PC alone, `run` is a step, and every other move is one the host
may also make inside a callout. -/
theorem hostMoveKeepsInv : Obligations.HostMoveKeepsInv := by
  intro m s t hi h
  cases m with
  | reset =>
    have hreset : (hostReset s).Inv := ⟨hi.mem, hi.sched, nofun, nofun, nofun, nofun⟩
    exact hreset.settle h
  | jump pc =>
    have hjump : (hostJump pc s).Inv := ⟨hi.mem, hi.sched, hi.nmi, hi.cwai, hi.dispatch, hi.check⟩
    exact hjump.settle h
  | run =>
    rcases runSteps_one h with h | rfl
    · exact stepKeepsInv s t hi h
    · exact hi
  | dispatchNext l => exact (hi.kept (Kept.hostDispatch l s)).settle h
  | setLine | setHalt | setRunning | init | queue | dequeue | free | setDeadline | poke =>
    exact (hi.kept (Kept.innerMove s _)).settle h

end Sys2Proof.Machine
end

section
/-! SUPPORT. The statements about the execution state machine (spec 60_exceptions.md R501 to R540): the fetch, the halt
input, recognition and the choice of a line, the entry of a handler and its frame, the waits, and the graph of the
execution states. -/

namespace Sys2Proof.Machine

/-! ### The fetch of an instruction (R534 to R536) -/

/-- The first `n` of four addresses from PC on. -/
theorem take_four_eq_map_range {α : Type} (f : Nat → α) {n : Nat} (h : n ≤ 4) :
    [f 0, f 1, f 2, f 3].take n = (List.range n).map f := by
  have hfour : [f 0, f 1, f 2, f 3] = (List.range 4).map f := rfl
  rw [hfour, ← List.map_take, List.take_range, Nat.min_eq_left h]

/-- Where the opcode is refused as such, it is ANDCC*, and its meaning refuses too (R355). -/
theorem runInstruction_refusedAtOpcode {pg : Page} {s u : State} {i : Instr} {bs rest : List Byte} (h : s.Quiet)
    (hr : refusedAtOpcode pg s = true) (hd : decode pg (s.byteAt s.pc :: bs) = .ok (i, rest))
    (hp : u.params = s.params) (hf : u.hostFault = none) : runInstruction pg s = exec i u := by
  have hcond := refusedAtOpcode_quiet h.1 pg
  rw [hr] at hcond
  simp only [Bool.true_eq, Bool.and_eq_true, beq_iff_eq] at hcond
  obtain ⟨⟨rfl, h38⟩, hparam⟩ := hcond
  obtain ⟨v, rfl⟩ : ∃ v, i = .andccDup v := by
    rw [h38] at hd
    cases bs with
    | nil => cases hd
    | cons v bs => cases hd; exact ⟨v, rfl⟩
  have hmeaning : exec (.andccDup v) u = .refused .illegalUncertain := by
    change execAndccDup v u = _
    simp only [execAndccDup, hp, hparam]
    exact refuse_quiet hf _
  rw [runInstruction, if_pos hr, fetchByte_quiet h.1, hmeaning]
  exact refuse_quiet h.2 _

/-- R534 to R536: the bytes at PC that make an instruction are fetched and the instruction executed. -/
theorem runInstruction_quiet {pg : Page} {s : State} {i : Instr} {rest : List Byte} (h : s.Quiet)
    (hd : decode pg [s.byteAt s.pc, s.byteAt (s.pc + 1#16), s.byteAt (s.pc + 2#16), s.byteAt (s.pc + 3#16)] =
      .ok (i, rest)) :
    ∃ (pb : Option Byte) (ops : List Byte), runInstruction pg s = exec i
      { s.after ((List.range (4 - rest.length)).map fun k => s.look (s.pc + BitVec.ofNat 16 k)) with
        pc := s.pc + BitVec.ofNat 16 (4 - rest.length), opcode := some (s.byteAt s.pc), postbyte := pb,
        operand := ops } := by
  obtain ⟨pb, ops, n, hn, hfetch⟩ := fetchInstr_quiet h.1 pg
  obtain ⟨hlen, hle, htake⟩ := decode_take hd
  rw [← hn] at hlen hle htake
  have hcount : 4 - rest.length = n := by omega
  have hlooks := take_four_eq_map_range (fun k => s.look (s.pc + BitVec.ofNat 16 k)) hle
  simp only [BitVec.add_zero] at hlooks
  refine ⟨pb, ops, ?_⟩
  rw [hcount, ← hlooks]
  cases hr : refusedAtOpcode pg s with
  | true => exact runInstruction_refusedAtOpcode h hr hd rfl h.2
  | false =>
    rw [runInstruction_of_decode hr (by rw [hfetch]; exact htake), hfetch]

/-- Settles O5: the fetch takes the bytes the decoder consumes; on page 0 the hook comes first. -/
theorem stepRunsDecoded : Obligations.StepRunsDecoded := by
  intro s pg i rest h hphase hd
  rw [step_of_fetchPhase hphase]
  by_cases hpg : pg = .page0
  · obtain ⟨pb, ops, e⟩ := runInstruction_quiet (s := hookFetch s) h hd
    refine ⟨_, pb, ops, rfl, ?_⟩
    simp only [if_pos hpg, e]
    simp [State.after, hookFetch, State.look, State.byteAt]
  · obtain ⟨pb, ops, e⟩ := runInstruction_quiet h hd
    refine ⟨_, pb, ops, rfl, ?_⟩
    simp only [if_neg hpg, e]
    simp [State.after]

/-! ### Halt, recognition and the choice of a line (R501, R506, R531, R532) -/

/-- Settles O8: in each state the test of `halt` chooses between the filler and the move. -/
theorem haltInput : Obligations.HaltInput := by
  rintro s ⟨hscript, hfault⟩
  have hfill : settle (filler s) = .next (s.after [s.fill]) := by
    rw [filler_quiet hscript]
    exact settle_quiet hfault
  refine ⟨fun hhalt hp => ?_, fun hhalt hp => ?_, fun hhalt hp => ?_, fun hhalt hp => ?_⟩
  · simp only [List.mem_cons, List.not_mem_nil, or_false] at hp
    rcases hp with hp | hp | hp | hp
    · simpa [step, hp, stepResetCheckHalt, hhalt] using hfill
    · simpa [step, hp, stepLabelA, hhalt] using hfill
    · simpa [step, hp, stepSyncCheckHalt, hhalt] using hfill
    · simpa [step, hp, stepCwaiCheckHalt, filler_quiet hscript, hhalt] using hfill
  · have hstep : step s = settle (s.goto .labelB) := by simp [step, hp, stepLabelA, hhalt]
    exact hstep.trans (settle_quiet hfault)
  · have hstep : step s = settle (s.goto .sync) := by simp [step, hp, stepSyncCheckHalt, hhalt]
    exact hstep.trans (settle_quiet hfault)
  · have hstep : step s = settle ((s.after [s.fill]).goto .dispatchIrq) := by
      simp [step, hp, stepCwaiCheckHalt, filler_quiet hscript, hhalt]
    exact hstep.trans (settle_quiet hfault)

/-- R46, R501: the age of a line is the signed difference of two ticks. -/
theorem State.old_iff (s : State) (l : LineId) : s.old l = true ↔ 2 ≤ (s.cycle - (s.line l).tick).toInt :=
  decide_eq_true_iff

/-- Settles O9: F is bit 6 of CC and I bit 4. -/
theorem recognition : Obligations.Recognition := by
  intro s
  simp only [State.recognised, State.pending, State.masked, Bool.and_eq_true, Bool.not_eq_true', State.old_iff]
  exact ⟨and_iff_left trivial, and_right_comm.trans and_assoc, and_right_comm.trans and_assoc⟩

/-- R506: the line selected is recognised, and none before it is. -/
theorem select_eq_some {s : State} {l : LineId} (h : s.recognised l = true)
    (hfirq : l = .firq → s.recognised .nmi = false)
    (hirq : l = .irq → s.recognised .nmi = false ∧ s.recognised .firq = false) : s.select = some l := by
  cases l with
  | nmi => simp [State.select, h]
  | firq => simp [State.select, h, hfirq rfl]
  | irq => simp [State.select, h, hirq rfl]

theorem select_eq_none {s : State} (h : ∀ l, s.recognised l = false) : s.select = none := by simp [State.select, h]

/-- Settles O10: LABEL_B acts on `select()`. -/
theorem labelB : Obligations.LabelB := by
  rintro s ⟨hscript, hfault⟩ hp
  refine ⟨fun l hl hfirq hirq => ?_, fun hnone => ?_⟩
  · have hreads : dummy s.pc (dummy s.pc s) = s.after [s.look s.pc, s.look s.pc] := by
      rw [dummy_quiet hscript, dummy_quiet (by simpa)]
      simp
    simp only [step, hp, stepLabelB, select_eq_some hl hfirq hirq, hreads]
    exact settle_quiet hfault
  · simp only [step, hp, stepLabelB, select_eq_none hnone]
    exact settle_quiet hfault

/-! ### The entry of a handler (R512, R520 to R524, R533) -/

/-- R522, as the end of a step. -/
theorem settle_enterVector_quiet {s : State} (h : s.Quiet) (v : Word) (m : Byte) :
    settle (enterVector v m s) = .next (entered v m s) := by
  rw [enterVector_quiet h.1]
  exact settle_quiet h.2

/-- The push of a frame neither needs nor makes a move of the host. -/
theorem stackFrame_keeps_quiet {s : State} (h : s.Quiet) (l : LineId) : (stackFrame l s).Quiet := by
  have entire : (stackEntire s).Quiet := by
    rw [stackEntire_quiet h.1]
    exact ⟨(pushed_script ..).trans h.1, (pushed_hostFault ..).trans h.2⟩
  cases l with
  | nmi => exact entire
  | firq =>
    rw [stackFrame, stackFirq_quiet h.1]
    exact ⟨(pushed_script ..).trans h.1, (pushed_hostFault ..).trans h.2⟩
  | irq => exact entire

/-- R533: not from CWAI, the recorded line's frame is pushed after one filler and its handler entered. -/
theorem stepDispatchIrq_quiet {s : State} (h : s.Quiet) (hv : s.viaCwai = false) {l : LineId}
    (hl : s.irqSel = some l) :
    stepDispatchIrq s = .next (entered l.vector l.masks (stackFrame l (s.after [s.fill]))) := by
  simp only [stepDispatchIrq, hv, hl, filler_quiet h.1]
  exact settle_enterVector_quiet (stackFrame_keeps_quiet (s := s.after [s.fill]) h l) _ _

/-- Settles O11: the frame of each line, its vector and its masks. -/
theorem interruptEntry : Obligations.InterruptEntry := by
  intro s h hp hv
  have hentire : stackEntire (s.after [s.fill]) = pushed .s 0xFF#8 { s.after [s.fill] with cc := s.cc ||| 0x80#8 } :=
    stackEntire_quiet (s := s.after [s.fill]) h.1
  have hshort : stackFirq (s.after [s.fill]) = pushed .s 0x81#8 { s.after [s.fill] with cc := s.cc &&& 0x7F#8 } :=
    stackFirq_quiet (s := s.after [s.fill]) h.1
  have hstep : step s = stepDispatchIrq s := by simp only [step, hp]
  rw [hstep, ← hentire, ← hshort]
  exact ⟨stepDispatchIrq_quiet h hv, stepDispatchIrq_quiet h hv, stepDispatchIrq_quiet h hv⟩

/-- Settles O12: from CWAI the line is the one selected now, and its frame is already pushed. -/
theorem cwaiEntry : Obligations.CwaiEntry := by
  intro s h hp hv
  refine ⟨fun l v m hmem hl => ?_, fun hnone => ?_⟩
  · obtain ⟨rfl, rfl⟩ : l.vector = v ∧ l.masks = m := by
      simp only [List.mem_cons, List.not_mem_nil, or_false, Prod.mk.injEq] at hmem
      rcases hmem with ⟨rfl, rfl, rfl⟩ | ⟨rfl, rfl, rfl⟩ | ⟨rfl, rfl, rfl⟩ <;> exact ⟨rfl, rfl⟩
    simp only [step, hp, stepDispatchIrq, hv, hl]
    exact settle_enterVector_quiet h _ _
  · have hstep : step s = settle (s.goto .cwaiCheckHalt) := by simp [step, hp, stepDispatchIrq, hv, hnone]
    exact hstep.trans (settle_quiet h.2)

/-- Where S holds a pushed list, its bytes lie from S upward in the reverse of the order they were pushed. -/
theorem StackHolds.byteAt_reverse {st : Stack} {p : Byte} {s u : State} (h : StackHolds st p s u) {k : Nat} {v : Byte}
    (hv : (pushOrder st p s).reverse[k]? = some v) : u.byteAt (u.sp st + BitVec.ofNat 16 k) = v := by
  obtain ⟨hk, hget⟩ := List.getElem?_eq_some_iff.mp hv
  have hsplit := List.take_append_drop k (pushOrder st p s).reverse
  rw [List.drop_eq_getElem_cons hk, hget] at hsplit
  have hlow : ((pushOrder st p s).reverse.take k).reverse.length = k := by
    rw [List.length_reverse, List.length_take, Nat.min_eq_left (Nat.le_of_lt hk)]
  have horder := congrArg List.reverse hsplit
  simp only [List.reverse_reverse, List.reverse_append, List.reverse_cons, List.append_assoc, List.cons_append,
    List.nil_append] at horder
  rw [← hlow]
  exact h.byteAt horder.symm

theorem pushed_stackHolds (p : Byte) (s : State) : StackHolds .s p s (pushed .s p s) := ⟨rfl, rfl⟩

/-- Settles O13: the frame is the reverse of the push order, and a push writes to its own addresses only. -/
theorem entireFrameLayout : Obligations.EntireFrameLayout := by
  intro s
  have hframe := pushed_stackHolds 0xFF#8 s
  refine ⟨hframe.sp, fun k hk => ?_, fun a ha => ?_⟩
  · have hget : (pushOrder .s 0xFF#8 s).reverse[k]? =
        some ([s.cc, s.a, s.b, s.dp, hiByte s.x, loByte s.x, hiByte s.y, loByte s.y, hiByte s.u, loByte s.u,
          hiByte s.pc, loByte s.pc].getD k 0#8) := by
      interval_cases k <;> rfl
    have hbyte := hframe.byteAt_reverse hget
    rwa [hframe.sp] at hbyte
  · have hout : a ∉ pushAddrs s.s 12 := by
      simp only [pushAddrs, List.mem_map, List.mem_range, not_exists, not_and]
      intro k hk e
      bv_omega
    exact (Memory.SameOutside.refl _ s.mem).pushMem (sp := s.s) (l := pushOrder .s 0xFF#8 s)
      (List.Subset.refl _) a hout

/-! ### SYNC and HCF (R507, R537, R540) -/

/-- R537 under a host that does not interfere. -/
theorem stepSync_quiet {s : State} (h : s.script = []) :
    stepSync s = { s.after [s.fill] with phase := if s.syncWake then .labelB else .syncCheckHalt } := by
  rw [stepSync, filler_quiet h]
  rfl

/-- Settles O14: SYNC acts on R507's predicate, under each value of the parameter. -/
theorem syncWait : Obligations.SyncWait := by
  rintro s ⟨hscript, hfault⟩ hp
  refine ⟨fun hparam => ?_, fun hparam => ?_⟩
  · simp only [step, hp, stepSync_quiet hscript, State.syncWake, hparam]
    exact settle_quiet hfault
  · simp only [step, hp, stepSync_quiet hscript, State.syncWake, hparam]
    exact settle_quiet hfault

theorem step_hcf {s : State} (hp : s.phase = .hcf) : step s = settle (filler s) := by simp only [step, hp, stepHcf]

/-- R540: a step in HCF under a host that does not interfere. -/
theorem step_hcf_quiet {s : State} (h : s.Quiet) (hp : s.phase = .hcf) : step s = .next (s.after [s.fill]) := by
  rw [step_hcf hp, filler_quiet h.1]
  exact settle_quiet h.2

/-- What a filler leaves of the core's own fields, whatever the host does in it. -/
theorem filler_sameCpu (s : State) : SameCpu { s with cycle := s.cycle + 1#32 } (filler s) := by
  have h := Kept.filler s
  exact ⟨h.a, h.b, h.x, h.y, h.u, h.s, h.pc, h.dp, h.cc, h.nmiArmed, filler_cycle s, h.phase, h.viaCwai, h.irqSel,
    h.opcode, h.postbyte, h.operand, h.params⟩

/-- Settles O15, by induction on the number of steps. -/
theorem hcfForever : Obligations.HcfForever := by
  refine ⟨fun n s h hp => ?_, fun s t hp h => ?_⟩
  · induction n generalizing s with
    | zero => simp [Host.Core.run]
    | succ n ih =>
      have hstep : Sys2Proof.core.step s = .next (s.after [s.fill]) := step_hcf_quiet h hp
      simp only [Host.Core.run, hstep, List.replicate_succ]
      rw [State.after_cons s.fill (List.replicate n s.fill)]
      exact ih (s.after [s.fill]) h hp
  · rw [step_hcf hp] at h
    obtain ⟨rfl, -⟩ := settle_next h
    exact filler_sameCpu s

/-! ### The graph of the execution states (R530) -/

/-- What the decoder answers stands on the page it decodes. -/
theorem decode_page {pg : Page} {bs rest : List Byte} {i : Instr} (h : decode pg bs = .ok (i, rest)) : i.page = pg := by
  cases bs with
  | nil => cases h
  | cons op bs =>
    have hshape := shapeOf_faithful pg op
    simp only [decode] at h
    cases hs : shapeOf pg op with
    | inh j =>
      rw [hs] at h hshape
      cases h
      exact hshape.2.1
    | byte f =>
      rw [hs] at h hshape
      match bs, h with
      | b :: bs, h => cases h; exact (hshape b).2.1
    | word f =>
      rw [hs] at h hshape
      match bs, h with
      | b :: c :: bs, h => cases h; exact (hshape _).2.1
    | post f =>
      rw [hs] at h hshape
      match bs, h with
      | b :: bs, h => cases h; exact (hshape b).2.1
    | indexed f =>
      rw [hs] at h hshape
      simp only [decodeShape] at h
      split at h
      · cases h; exact (hshape _).2.1
      · cases h

/-- A fetch that answers a next state has executed an instruction of its page. -/
theorem runInstruction_next {pg : Page} {s t : State} (h : runInstruction pg s = .next t) :
    ∃ i, i.page = pg ∧ exec i (fetchInstr pg s).2 = .next t := by
  unfold runInstruction at h
  split at h
  · exact (refuse_next h).elim
  · split at h
    · next i rest hd => exact ⟨i, decode_page hd, h⟩
    · unfold reject at h
      split at h <;> exact (refuse_next h).elim

theorem complete_phase {u t : State} (k : complete u = .next t) : t.phase = .labelA := by
  obtain ⟨rfl, -⟩ := complete_next k
  rfl

theorem longBranch_phase {c : Cond} {off : Word} {s t : State} (k : longBranch c off s = .next t) :
    t.phase = .labelA := by
  unfold longBranch at k
  dsimp only at k
  split at k <;> exact complete_phase k

theorem undefinedByte_phase {s t : State} (k : undefinedByte s = .next t) : t.phase = .hcf := by
  unfold undefinedByte at k
  split at k
  · obtain ⟨rfl, -⟩ := settle_next k
    rfl
  · exact (refuse_next k).elim

/-- An instruction of page 2 or 3 completes, or is an undefined byte (R408). -/
theorem exec_phase_of_page_ne_page0 {i : Instr} {s t : State} (hpage : i.page ≠ .page0) (k : exec i s = .next t) :
    t.phase = .labelA ∨ t.phase = .hcf := by
  cases i <;> dsimp only [exec] at k
  case cmpd | cmpy | cmpu | cmps | ldy | lds | sty | sts | swi2 | swi3 => exact .inl (complete_phase k)
  case lbrn | lbhi | lbls | lbcc | lbcs | lbne | lbeq | lbvc | lbvs | lbpl | lbmi | lbge | lblt | lbgt | lble =>
    exact .inl (longBranch_phase k)
  case page2Undefined | page3Undefined => exact .inr (undefinedByte_phase k)
  all_goals exact absurd rfl hpage

theorem step_phase_of_page23 {s t : State} {pg : Page} (hpg : pg ≠ .page0) (hp : s.phase = fetchPhase pg)
    (h : step s = .next t) : t.phase = .labelA ∨ t.phase = .hcf := by
  rw [step_of_fetchPhase hp] at h
  obtain ⟨i, hi, k⟩ := runInstruction_next h
  exact exec_phase_of_page_ne_page0 (hi ▸ hpg) k

/-- However an instruction ends. -/
theorem Ends.phase {s t : State} (h : Ends s t) :
    t.phase ∈ [Phase.labelA, .page2, .page3, .sync, .dispatchIrq, .hcf] := by
  cases h with
  | done u h e => subst e; simp
  | entry u h e => subst e; simp
  | goto u h p hp e =>
    subst e
    simp only [List.mem_cons, List.not_mem_nil, or_false] at hp
    rcases hp with rfl | rfl | rfl | rfl <;> simp
  | wait u h e => subst e; simp

/-- Settles O16: by what a step can do, and on pages 2 and 3 by what their instructions can do. -/
theorem phaseGraph : Obligations.PhaseGraph := by
  intro s t h
  cases step_ends h with
  | reset hp e => subst e; simp [hp]
  | instr hends hp =>
    rcases hp with hp | hp | hp
    · simpa only [hp] using hends.phase
    · simpa [hp] using step_phase_of_page23 (pg := .page2) nofun hp h
    · simpa [hp] using step_phase_of_page23 (pg := .page3) nofun hp h
  | entry u hp _ e => subst e; simp [hp]
  | pick u hp _ l e => subst e; simp [hp]
  | goto u p _ e hp _ =>
    subst e
    simp only [List.mem_cons, List.not_mem_nil, or_false, Prod.mk.injEq] at hp
    rcases hp with ⟨hs, rfl⟩ | ⟨hs, rfl⟩ | ⟨hs, rfl⟩ | ⟨hs, rfl⟩ | ⟨hs, rfl⟩ | ⟨hs, rfl⟩ | ⟨hs, rfl⟩ |
      ⟨hs, rfl⟩ | ⟨hs, rfl⟩ | ⟨hs, rfl⟩ | ⟨hs, rfl⟩ | ⟨hs, rfl⟩ | ⟨hs, rfl⟩ <;> simp [hs]

end Sys2Proof.Machine
end

section
/-! SUPPORT. The statements about the interrupt lines (spec 60_exceptions.md R500, R502, R505): what a setter writes,
and what arms NMI. -/

namespace Sys2Proof

/-! ### Arming NMI (R505) -/

/-- The explicit loads of S: LDS, LEAS, a transfer to S, an exchange with S, and PULU of S. -/
def Instr.loadsS : Instr → Bool
  | .lds _ | .leas _ => true
  | .tfr _ r => r = .s
  | .exg r1 r2 => r1 = .s || r2 = .s
  | .pulu p => p.getLsbD 6
  | _ => false

/-- The list of R505. -/
theorem Instr.loadsS_iff (i : Instr) : i.loadsS = true ↔
    (∃ o, i = .lds o) ∨ (∃ x, i = .leas x) ∨ (∃ r, i = .tfr r .s ∨ i = .exg r .s ∨ i = .exg .s r) ∨
      (∃ p : Byte, p.getLsbD 6 = true ∧ i = .pulu p) := by
  constructor
  · intro h
    cases i
    case lds o => exact .inl ⟨o, rfl⟩
    case leas x => exact .inr (.inl ⟨x, rfl⟩)
    case tfr r1 r2 =>
      obtain rfl : r2 = .s := of_decide_eq_true h
      exact .inr (.inr (.inl ⟨r1, .inl rfl⟩))
    case exg r1 r2 =>
      rcases Bool.or_eq_true_iff.mp h with h | h
      · obtain rfl : r1 = .s := of_decide_eq_true h
        exact .inr (.inr (.inl ⟨r2, .inr (.inr rfl)⟩))
      · obtain rfl : r2 = .s := of_decide_eq_true h
        exact .inr (.inr (.inl ⟨r1, .inr (.inl rfl)⟩))
    case pulu p => exact .inr (.inr (.inr ⟨p, h, rfl⟩))
    all_goals cases h
  · rintro (⟨o, rfl⟩ | ⟨x, rfl⟩ | ⟨r, rfl | rfl | rfl⟩ | ⟨p, hp, rfl⟩)
    · rfl
    · rfl
    · rfl
    · simp [Instr.loadsS]
    · rfl
    · exact hp

end Sys2Proof

namespace Sys2Proof.Machine

section shapes

variable {s t : State}

theorem complete_nmiArmed {u : State} {armed : Bool} (k : complete u = .next t) (h : u.nmiArmed = armed) :
    t.nmiArmed = armed := by
  obtain ⟨rfl, -⟩ := complete_next k
  exact h

theorem settle_nmiArmed {u : State} {armed : Bool} (k : settle u = .next t) (h : u.nmiArmed = armed) :
    t.nmiArmed = armed := by
  obtain ⟨rfl, -⟩ := settle_next k
  exact h

theorem load16_nmiArmed {f : Word → State → State} {o : Src16} {arms : Bool} (k : load16 f o s = .next t)
    (hf : ∀ v u, (f v u).nmiArmed = (u.nmiArmed || arms)) : t.nmiArmed = (s.nmiArmed || arms) :=
  complete_nmiArmed k (by simp [hf])

theorem lea_nmiArmed {f : Word → State → State} {x : Indexed} {arms : Bool} (k : lea f x s = .next t)
    (hf : ∀ v u, (f v u).nmiArmed = (u.nmiArmed || arms)) : t.nmiArmed = (s.nmiArmed || arms) :=
  complete_nmiArmed k (by simp [hf])

theorem storeImm_nmiArmed {f : State → Word} (k : storeImm f s = .next t) : t.nmiArmed = s.nmiArmed := by
  unfold storeImm at k
  split at k
  · exact (refuse_next k).elim
  · exact complete_nmiArmed k (by simp)

theorem execTfr_nmiArmed {r1 r2 : TReg} (k : execTfr r1 r2 s = .next t) :
    t.nmiArmed = (s.nmiArmed || decide (r2 = .s)) := by
  unfold execTfr at k
  split at k
  · exact (refuse_next k).elim
  · exact complete_nmiArmed k (by simp [tregWrite_nmiArmed])

theorem execExg_nmiArmed {r1 r2 : TReg} (k : execExg r1 r2 s = .next t) :
    t.nmiArmed = (s.nmiArmed || (decide (r1 = .s) || decide (r2 = .s))) := by
  unfold execExg at k
  split at k
  · exact (refuse_next k).elim
  · exact complete_nmiArmed k (by simp [tregWrite_nmiArmed, Bool.or_assoc])

theorem execAndccDup_nmiArmed {v : Byte} (k : execAndccDup v s = .next t) : t.nmiArmed = s.nmiArmed := by
  unfold execAndccDup at k
  split at k
  · exact (refuse_next k).elim
  · exact complete_nmiArmed k (by simp)

theorem shortBranch_nmiArmed {c : Cond} {off : Byte} (k : shortBranch c off s = .next t) :
    t.nmiArmed = s.nmiArmed := by
  unfold shortBranch at k
  dsimp only at k
  split at k <;> exact complete_nmiArmed k (by simp)

theorem longBranch_nmiArmed {c : Cond} {off : Word} (k : longBranch c off s = .next t) : t.nmiArmed = s.nmiArmed := by
  unfold longBranch at k
  dsimp only at k
  split at k <;> exact complete_nmiArmed k (by simp)

theorem undefinedByte_nmiArmed (k : undefinedByte s = .next t) : t.nmiArmed = s.nmiArmed := by
  unfold undefinedByte at k
  split at k
  · exact settle_nmiArmed k rfl
  · exact (refuse_next k).elim

end shapes

/-- R505: an instruction arms NMI exactly when it is an explicit load of S, and none disarms it, whatever the host
does. -/
theorem exec_nmiArmed {i : Instr} {s t : State} (k : exec i s = .next t) :
    t.nmiArmed = (s.nmiArmed || i.loadsS) := by
  cases i
  case lds => exact load16_nmiArmed (f := State.loadS) k fun _ _ => (Bool.or_true _).symm
  case leas => exact lea_nmiArmed (f := State.loadS) k fun _ _ => (Bool.or_true _).symm
  case tfr => exact execTfr_nmiArmed k
  case exg => exact execExg_nmiArmed k
  case pulu => exact complete_nmiArmed k (by simp [pullList_u_nmiArmed, Instr.loadsS])
  all_goals
    dsimp only [exec] at k
    refine Eq.trans ?_ (Bool.or_false _).symm
  case stxImm | stuImm => exact storeImm_nmiArmed k
  case andccDup => exact execAndccDup_nmiArmed k
  case bra | brn | bhi | bls | bcc | bcs | bne | beq | bvc | bvs | bpl | bmi | bge | blt | bgt | ble =>
    exact shortBranch_nmiArmed k
  case lbrn | lbhi | lbls | lbcc | lbcs | lbne | lbeq | lbvc | lbvs | lbpl | lbmi | lbge | lblt | lbgt | lble =>
    exact longBranch_nmiArmed k
  case page2Undefined | page3Undefined => exact undefinedByte_nmiArmed k
  case cwai | sync | hcf | page2Prefix | page3Prefix => exact settle_nmiArmed k (by simp)
  case puls | rti => exact complete_nmiArmed k (by simp [pullList_s_nmiArmed])
  case swi | swi2 | swi3 | resetIll => exact complete_nmiArmed k (by simp [stackEntire])
  all_goals exact complete_nmiArmed k (by simp)

@[simp] theorem stackFrame_nmiArmed (l : LineId) (s : State) : (stackFrame l s).nmiArmed = s.nmiArmed := by
  cases l <;> simp [stackFrame, stackEntire, stackFirq]

theorem stepDispatchIrq_nmiArmed {s t : State} (k : stepDispatchIrq s = .next t) : t.nmiArmed = s.nmiArmed := by
  unfold stepDispatchIrq at k
  split at k
  · split at k <;> exact settle_nmiArmed k (by simp)
  · split at k
    · cases k
    · exact settle_nmiArmed k (by simp)

/-- R505: of the steps that run no instruction, that of RESET disarms NMI and the others leave the arming. -/
theorem step_nmiArmed {s t : State} (k : step s = .next t)
    (hp : s.phase ∉ [.nextInstruction, .page2, .page3]) : t.nmiArmed = (s.phase != .reset && s.nmiArmed) := by
  unfold step at k
  split at k
  · next hs => exact settle_nmiArmed k (by simp [hs, stepReset, resetInit])
  · next hs => exact settle_nmiArmed k (by rw [stepResetCheckHalt]; split <;> simp [hs])
  · next hs => exact settle_nmiArmed k (by rw [stepLabelA]; split <;> simp [hs])
  · next hs => exact settle_nmiArmed k (by rw [stepLabelB]; split <;> simp [hs])
  · next hs => exact (stepDispatchIrq_nmiArmed k).trans (by simp [hs])
  · next hs => simp [hs] at hp
  · next hs => simp [hs] at hp
  · next hs => simp [hs] at hp
  · next hs => exact settle_nmiArmed k (by simp [hs, stepSync])
  · next hs => exact settle_nmiArmed k (by rw [stepSyncCheckHalt]; split <;> simp [hs])
  · next hs => exact settle_nmiArmed k (by unfold stepCwaiCheckHalt; dsimp only; split <;> simp [hs])
  · next hs => exact settle_nmiArmed k (by simp [hs, stepHcf])

/-- Settles O23: the instructions, the other steps, and `reset()`. -/
theorem nmiArming : Obligations.NmiArming := by
  refine ⟨fun i s t k => ?_, fun s t k hp => step_nmiArmed k hp, fun s => rfl⟩
  rw [exec_nmiArmed k, Bool.or_eq_true, Instr.loadsS_iff]

end Sys2Proof.Machine

namespace Sys2Proof

open Machine

/-- Settles O24: the edge is the same test in all three, written as a condition. -/
theorem setLine : Obligations.SetLine := by
  intro s v
  have edge (l : Line) (cycle : Tick) :
      l.set cycle v = ⟨v, if v = true ∧ l.asserted = false then cycle else l.tick⟩ := by simp [Line.set]
  refine ⟨?_, ?_, ?_⟩ <;> simp only [Machine.setLine, edge]

end Sys2Proof
end

section
/-! SUPPORT. The statements about the event scheduler (spec 60_exceptions.md R551 to R553, R557, R559): which list an
event is on, and what each operation finds and writes. -/

namespace Sys2Proof.Machine

/-! ### What a consistent scheduler says of an event (R50) -/

theorem Sched.list_of_mem {sc : Sched} (c : sc.consistent) {l : ListId} {e : EventId} (h : e ∈ sc.getList l) :
    ∃ ev, sc.find e = some ev ∧ ev.list = some l := (((Sched.consistent_iff sc).mp c).2.1 l e).mp h

/-- A queued event is on the one list it names. -/
theorem Sched.mem_iff_of_list {sc : Sched} (c : sc.consistent) {e : EventId} {ev : Event} {l : ListId}
    (hev : sc.find e = some ev) (hl : ev.list = some l) (k : ListId) : e ∈ sc.getList k ↔ k = l := by
  rw [((Sched.consistent_iff sc).mp c).2.1 k e]
  simp [hev, hl, eq_comm]

/-- An event that is not queued, or does not exist, is on no list. -/
theorem Sched.not_mem_of_not_queued {sc : Sched} (c : sc.consistent) {e : EventId}
    (h : ∀ ev, sc.find e = some ev → ev.queued = false) (l : ListId) : e ∉ sc.getList l := by
  intro he
  obtain ⟨ev, hev, hl⟩ := Sched.list_of_mem c he
  have hnone := (((Sched.consistent_iff sc).mp c).2.2 e ev hev).mpr (h ev hev)
  rw [hl] at hnone
  cases hnone

/-- A queued event names a list. -/
theorem Sched.list_of_queued {sc : Sched} (c : sc.consistent) {e : EventId} {ev : Event} (hev : sc.find e = some ev)
    (hq : ev.queued = true) : ∃ l, ev.list = some l := by
  refine Option.ne_none_iff_exists'.mp fun hn => ?_
  rw [(((Sched.consistent_iff sc).mp c).2.2 e ev hev).mp hn] at hq
  cases hq

/-! ### Queueing (R551, R559) -/

/-- R559's range of a new deadline against `cycle` and every entry (log 12). -/
theorem inWindow_all_iff (sc : Sched) (cycle t : Tick) (es : List EventId) :
    (inWindow t cycle && es.all fun x => inWindow t (sc.deadline x)) = true ↔
      (t - cycle).toInt.natAbs ≤ 2147483647 ∧ ∀ x ∈ es, (t - sc.deadline x).toInt.natAbs ≤ 2147483647 := by
  simp [inWindow, tdiff]

section queue

variable {sc : Sched} {cycle : Tick} {l : ListId} {e : EventId} {ev : Event} (hev : sc.find e = some ev)
include hev

theorem Sched.queue_of_queued (hq : ev.queued = true) : sc.queue cycle l e = .error .doubleQueue := by
  simp [Sched.queue, hev, hq]

theorem Sched.queue_of_inWindow (hq : ev.queued = false)
    (hw : (inWindow ev.atTick cycle && (sc.getList l).all fun x => inWindow ev.atTick (sc.deadline x)) = true) :
    sc.queue cycle l e = .ok
      ((sc.setList l (sc.insert ev.atTick e (sc.getList l))).put e { ev with queued := true, list := some l }) := by
  simp only [Sched.queue, hev, hq, hw]
  rfl

theorem Sched.queue_of_not_inWindow (hq : ev.queued = false)
    (hw : ¬(inWindow ev.atTick cycle && (sc.getList l).all fun x => inWindow ev.atTick (sc.deadline x)) = true) :
    sc.queue cycle l e = .error .deadlineOutOfRange := by
  simp only [Sched.queue, hev, hq, if_neg hw]
  rfl

end queue

/-- Settles O55: `insert` splits the list at the first later deadline, and the event alone is written. -/
theorem queueEvent : Obligations.QueueEvent := by
  intro sc cycle l e ev hev
  rw [← inWindow_all_iff]
  refine ⟨Sched.queue_of_queued hev, fun hq hw => ?_, Sched.queue_of_not_inWindow hev⟩
  obtain ⟨before, later, hsplit, hinsert, hbefore, hlater⟩ := sc.insert_eq ev.atTick e (sc.getList l)
  refine ⟨_, before, later, Sched.queue_of_inWindow hev hq hw, hsplit, ?_, hbefore, hlater, ?_, fun k hk => ?_,
    fun k hk => ?_⟩
  · simp [Sched.getList_setList, hinsert]
  · exact Sched.find_put_same ..
  · simp [Sched.find_put, hk]
  · simp [Sched.getList_setList, hk]

/-! ### Taking an event off its list (R552, R553) -/

/-- R552 on a queued event. -/
theorem Sched.dequeue_of_list {sc : Sched} (c : sc.consistent) {e : EventId} {ev : Event} {l : ListId}
    (hev : sc.find e = some ev) (hl : ev.list = some l) :
    sc.dequeue e =
      (sc.setList l ((sc.getList l).filter (· ≠ e))).put e { ev with queued := false, list := none } := by
  have hq : ev.queued = true := by
    have h3 := ((Sched.consistent_iff sc).mp c).2.2 e ev hev
    rw [hl] at h3
    simpa using h3
  obtain ⟨t, cb, q, k⟩ := ev
  subst hq hl
  simp only [Sched.dequeue, hev]

/-- R552 on an event that is not queued. -/
theorem Sched.dequeue_of_not_queued {sc : Sched} {e : EventId} (h : ∀ ev, sc.find e = some ev → ev.queued = false) :
    sc.dequeue e = sc := by
  unfold Sched.dequeue
  split
  · next t cb l hev => exact absurd (h _ hev) (by simp)
  · rfl

theorem filter_ne_of_not_mem {e : EventId} {es : List EventId} (h : e ∉ es) : es.filter (· ≠ e) = es := by
  refine List.filter_eq_self.mpr fun x hx => ?_
  have hne : x ≠ e := fun hxe => h (hxe ▸ hx)
  simpa using hne

/-- R552, R557: what a dequeue leaves of each list. -/
theorem Sched.getList_dequeue {sc : Sched} (c : sc.consistent) (e : EventId) (l : ListId) :
    (sc.dequeue e).getList l = (sc.getList l).filter (· ≠ e) := by
  by_cases hn : ∀ ev, sc.find e = some ev → ev.queued = false
  · rw [Sched.dequeue_of_not_queued hn, filter_ne_of_not_mem (Sched.not_mem_of_not_queued c hn l)]
  · simp only [not_forall, Bool.not_eq_false] at hn
    obtain ⟨ev, hev, hq⟩ := hn
    obtain ⟨k, hk⟩ := Sched.list_of_queued c hev hq
    rw [Sched.dequeue_of_list c hev hk, Sched.getList_put, Sched.getList_setList]
    split
    · next hlk => rw [hlk]
    · next hlk =>
      have hout : e ∉ sc.getList l := fun he => hlk ((Sched.mem_iff_of_list c hev hk l).mp he)
      exact (filter_ne_of_not_mem hout).symm

/-- R552: a dequeued event keeps its deadline and its callback. -/
theorem Sched.find_dequeue_same {sc : Sched} (c : sc.consistent) {e : EventId} {ev : Event}
    (hev : sc.find e = some ev) : (sc.dequeue e).find e = some { ev with queued := false, list := none } := by
  cases hl : ev.list with
  | none =>
    have hq := (((Sched.consistent_iff sc).mp c).2.2 e ev hev).mp hl
    rw [Sched.dequeue_of_not_queued fun w hw => by rw [hev] at hw; cases hw; exact hq, hev, ← hq, ← hl]
  | some l =>
    rw [Sched.dequeue_of_list c hev hl]
    exact Sched.find_put_same ..

/-- R557: no other event is touched. -/
theorem Sched.find_dequeue_other (sc : Sched) {e x : EventId} (hx : x ≠ e) : (sc.dequeue e).find x = sc.find x := by
  unfold Sched.dequeue
  split
  · simp [Sched.find_put, hx]
  · rfl

/-- Settles O56: list by list and event by event; a dequeued event is not queued, so the second time changes nothing. -/
theorem dequeueEvent : Obligations.DequeueEvent := by
  intro sc e c
  refine ⟨Sched.getList_dequeue c e, fun ev => Sched.find_dequeue_same c, fun x => Sched.find_dequeue_other sc,
    Sched.dequeue_of_not_queued, Sched.dequeue_of_not_queued fun w hw => ?_⟩
  cases hev : sc.find e with
  | none =>
    have hsame : sc.dequeue e = sc := Sched.dequeue_of_not_queued fun v hv => by rw [hev] at hv; cases hv
    rw [hsame, hev] at hw
    cases hw
  | some ev =>
    rw [Sched.find_dequeue_same c hev] at hw
    cases hw
    rfl

/-- R553: the head of a list and the scheduler without it. -/
theorem Sched.popHead_of_cons {sc : Sched} {l : ListId} {e : EventId} {es : List EventId} {ev : Event}
    (hl : sc.getList l = e :: es) (hev : sc.find e = some ev) :
    sc.popHead l = ((sc.setList l es).put e { ev with queued := false, list := none }, some (e, ev.callback)) := by
  simp only [Sched.popHead, hl, hev]

/-- Settles O57: the head exists because the scheduler is consistent, and the callback is a callout without moves. -/
theorem dispatchNext : Obligations.DispatchNext := by
  rintro s l ⟨hscript, hfault⟩ c
  refine ⟨fun hl => ?_, fun e es hl => ?_⟩
  · have hnothing : hostDispatch l s = s := by simp only [hostDispatch, hl]
    change settle (hostDispatch l s) = _
    rw [hnothing]
    exact settle_quiet hfault
  · obtain ⟨ev, hev, -⟩ := Sched.list_of_mem c (l := l) (e := e) (by simp [hl])
    have hpop := Sched.popHead_of_cons hl hev
    have hdispatch : hostDispatch l s = { s with
        sched := (s.sched.setList l es).put e { ev with queued := false, list := none },
        trace := .callback e ev.callback :: s.trace } := by
      simp only [hostDispatch, hl, dispatchHead, hpop]
      exact callout_quiet hscript
    refine ⟨ev, _, hev, (congrArg settle hdispatch).trans (settle_quiet hfault), rfl, ?_, Sched.find_put_same ..,
      fun k hk => ?_, fun x hx => ?_⟩
    · simp [Sched.getList_setList]
    · simp [Sched.getList_setList, hk]
    · simp [Sched.find_put, hx]

end Sys2Proof.Machine
end

section
/-! SUPPORT. The statement about the moves of the host that break a precondition inside a callout (spec
60_exceptions.md R541, R542, R560): the first one is kept to the end of the step (log 10), which then ends in it. -/

namespace Sys2Proof.Machine

/-- The host has broken a precondition in this step, and `f` is the first (log 10). -/
structure Broken (f : Fault) (s : State) : Prop where
  fault : s.hostFault = some f

section broken

variable {f : Fault} {s : State}

/-! ### How a step ends in it -/

theorem settle_broken {o : Out} (k : settle s = o) (h : Broken f s) : o = .fault f := by
  rw [← k]
  simp only [settle, h.fault]

theorem refuse_broken {o : Out} {r : Refusal} (k : refuse r s = o) (h : Broken f s) : o = .fault f := by
  rw [← k]
  simp only [refuse, h.fault]

theorem complete_broken {o : Out} (k : complete s = o) (h : Broken f s) : o = .fault f :=
  settle_broken k ⟨h.fault⟩

/-! ### Moves of the host and bus cycles keep it -/

/-- An update that leaves the broken precondition as it is. -/
theorem Broken.update {t : State} (h : Broken f s) (e : t.hostFault = s.hostFault) : Broken f t := ⟨e.trans h.fault⟩

theorem Broken.raise (h : Broken f s) (g : Fault) : Broken f (s.raise g) := ⟨by simp [State.raise, h.fault]⟩

theorem Broken.withSched (h : Broken f s) (r : Except Fault Sched) : Broken f (s.withSched r) := by
  cases r with
  | ok sc => exact h.update rfl
  | error g => exact h.raise g

theorem Broken.innerMove (h : Broken f s) (m : HostMove) : Broken f (innerMove s m) := by
  cases m with
  | setLine l v => cases l <;> exact h.update rfl
  | setHalt | setRunning | dequeue | poke => exact h.update rfl
  | init => exact (h.withSched _).update rfl
  | queue | free | setDeadline => exact h.withSched _
  | dispatchNext l =>
    simp only [Machine.innerMove, dispatchHead]
    split <;> exact h.update rfl
  | reset | jump | run => exact h.raise _

theorem Broken.foldl (h : Broken f s) (ms : List HostMove) : Broken f (ms.foldl Machine.innerMove s) := by
  induction ms generalizing s with
  | nil => exact h
  | cons m ms ih => exact ih (h.innerMove m)

theorem Broken.callout (h : Broken f s) : Broken f (callout s) := by
  unfold Machine.callout
  split
  · exact h
  · refine Broken.foldl ?_ _
    exact h.update rfl

theorem Broken.readCycle (h : Broken f s) (a : Word) : Broken f (readCycle a s).2 := h.callout.update rfl

theorem Broken.writeCycle (h : Broken f s) (a : Word) (v : Byte) : Broken f (writeCycle a v s) := h.callout.update rfl

theorem Broken.dummy (h : Broken f s) (a : Word) : Broken f (dummy a s) := h.readCycle a

theorem Broken.filler (h : Broken f s) : Broken f (filler s) := h.readCycle _

theorem Broken.fillers (h : Broken f s) (n : Nat) : Broken f (fillers n s) := by
  induction n generalizing s with
  | zero => exact h
  | succ n ih => exact ih h.filler

theorem Broken.readWord (h : Broken f s) (a : Word) : Broken f (readWord a s).2 := (h.readCycle a).readCycle _

theorem Broken.writeWord (h : Broken f s) (a v : Word) : Broken f (writeWord a v s) :=
  (h.writeCycle a _).writeCycle _ _

/-! ### Operands, stacks and the fetch keep it -/

theorem Broken.indexedForm (h : Broken f s) (x : Indexed) : Broken f (indexedForm x s).2 := by
  obtain ⟨r, mode, ind⟩ := x
  cases mode with
  | off5 | accB | accA => exact h.filler
  | inc1 | inc2 | dec1 | dec2 => exact (h.fillers _).update (setIdx_hostFault ..)
  | zero | off8 | pcr8 | extInd => exact h
  | off16 | accD | pcr16 => exact h.fillers _

theorem Broken.eaIndexed (h : Broken f s) (x : Indexed) : Broken f (eaIndexed x s).2 := by
  unfold Machine.eaIndexed
  cases x.indirect
  · exact (h.indexedForm x).filler
  · exact ((h.indexedForm x).readWord _).filler.filler

theorem Broken.ea (h : Broken f s) (m : MemOp) : Broken f (ea m s).2 := by
  cases m with
  | direct | extended => exact h.filler
  | indexed x => exact h.eaIndexed x

theorem Broken.operand8 (h : Broken f s) (o : Src8) : Broken f (operand8 o s).2 := by
  cases o with
  | imm v => exact h
  | mem m => exact (h.ea m).readCycle _

theorem Broken.operand16 (h : Broken f s) (o : Src16) : Broken f (operand16 o s).2 := by
  cases o with
  | imm v => exact h
  | mem m => exact (h.ea m).readWord _

theorem Broken.push8 (h : Broken f s) (st : Stack) (v : Byte) : Broken f (push8 st v s) :=
  (h.update (setSp_hostFault ..)).writeCycle _ _

theorem Broken.push16 (h : Broken f s) (st : Stack) (v : Word) : Broken f (push16 st v s) :=
  (h.push8 st _).push8 st _

theorem Broken.pull8 (h : Broken f s) (st : Stack) : Broken f (pull8 st s).2 :=
  (h.readCycle _).update (setSp_hostFault ..)

theorem Broken.pull16 (h : Broken f s) (st : Stack) : Broken f (pull16 st s).2 := (h.pull8 st).pull8 st

theorem Broken.push8If (h : Broken f s) (c : Bool) (st : Stack) (g : State → Byte) : Broken f (push8If c st g s) := by
  cases c
  · exact h
  · exact h.push8 st _

theorem Broken.push16If (h : Broken f s) (c : Bool) (st : Stack) (g : State → Word) :
    Broken f (push16If c st g s) := by
  cases c
  · exact h
  · exact h.push16 st _

theorem Broken.pull8If (h : Broken f s) (c : Bool) (st : Stack) {g : Byte → State → State}
    (hg : ∀ v u, (g v u).hostFault = u.hostFault) : Broken f (pull8If c st g s) := by
  cases c
  · exact h
  · exact (h.pull8 st).update (hg _ _)

theorem Broken.pull16If (h : Broken f s) (c : Bool) (st : Stack) {g : Word → State → State}
    (hg : ∀ v u, (g v u).hostFault = u.hostFault) : Broken f (pull16If c st g s) := by
  cases c
  · exact h
  · exact (h.pull16 st).update (hg _ _)

theorem Broken.pushList (h : Broken f s) (st : Stack) (p : Byte) : Broken f (pushList st p s) :=
  (((((((h.push16If _ st _).push16If _ st _).push16If _ st _).push16If _ st _).push8If _ st _).push8If _ st _).push8If
    _ st _).push8If _ st _

theorem Broken.pullList (h : Broken f s) (st : Stack) (p : Byte) : Broken f (pullList st p s) := by
  unfold Machine.pullList
  refine Broken.pull16If (Broken.pull16If (Broken.pull16If (Broken.pull16If (Broken.pull8If (Broken.pull8If
    (Broken.pull8If (Broken.pull8If h _ _ ?_) _ _ ?_) _ _ ?_) _ _ ?_) _ _ ?_) _ _ ?_) _ _ (setOtherSp_hostFault st))
    _ _ ?_
  all_goals exact fun _ _ => rfl

theorem Broken.tregWrite (h : Broken f s) (r : TReg) (v : Word) : Broken f (tregWrite r v s) :=
  h.update (tregWrite_hostFault ..)

/-- Where the first filler of an entry finds the precondition broken, or breaks it, the entry keeps it. -/
theorem enterVector_broken (h : ∀ u : State, u.hostFault = s.hostFault → u.script = s.script →
    Broken f (filler u)) (v : Word) (m : Byte) : Broken f (enterVector v m s) := by
  unfold enterVector
  refine ⟨?_⟩
  dsimp only
  refine Broken.fault (Broken.filler ⟨?_⟩)
  dsimp only
  refine Broken.fault (Broken.readWord (h _ ?_ ?_) v)
  · rfl
  · rfl

theorem Broken.enterVector (h : Broken f s) (v : Word) (m : Byte) : Broken f (enterVector v m s) :=
  enterVector_broken (fun _ hf _ => (h.update hf).filler) v m

theorem Broken.stackEntire (h : Broken f s) : Broken f (stackEntire s) := by
  refine Broken.pushList ?_ _ _
  exact h.update rfl

theorem Broken.stackFirq (h : Broken f s) : Broken f (stackFirq s) := by
  refine Broken.pushList ?_ _ _
  exact h.update rfl

theorem Broken.stackFrame (h : Broken f s) (l : LineId) : Broken f (stackFrame l s) := by
  cases l with
  | firq => exact h.stackFirq
  | nmi | irq => exact h.stackEntire

theorem Broken.fetchOperands (h : Broken f s) (n : Nat) : Broken f (fetchOperands n s).2 := by
  induction n generalizing s with
  | zero => exact h
  | succ n ih => exact ih ((h.readCycle s.pc).update rfl)

theorem Broken.fetchPostbyte (h : Broken f s) : Broken f (fetchPostbyte s).2 := (h.readCycle s.pc).update rfl

theorem Broken.fetchRest (h : Broken f s) (sh : Shape) : Broken f (fetchRest sh s).2 := by
  cases sh with
  | inh => exact h
  | byte | word => exact h.fetchOperands _
  | post => exact h.fetchPostbyte
  | indexed => exact h.fetchPostbyte.fetchOperands _

/-! ### The shared meanings end in it -/

section shapes

variable {o : Out}

theorem rmwMem_broken {op : Byte → Byte → Byte × Byte} {m : MemOp} (k : rmwMem op m s = o) (h : Broken f s) :
    o = .fault f := by
  refine complete_broken k (Broken.writeCycle (Broken.filler ?_) _ _)
  exact ((h.ea m).readCycle (ea m s).1).update rfl

theorem tstMem_broken {m : MemOp} (k : tstMem m s = o) (h : Broken f s) : o = .fault f := by
  refine complete_broken k (Broken.fillers ?_ _)
  exact ((h.ea m).readCycle (ea m s).1).update rfl

/-- The inherent instructions: a dummy read at PC, then registers. -/
theorem inherent_broken {u : State} (k : complete u = o) (h : Broken f s)
    (hu : u.hostFault = (dummy s.pc s).hostFault) : o = .fault f := complete_broken k ((h.dummy s.pc).update hu)

/-- The two-operand accumulator instructions: an operand, then registers. -/
theorem src8_broken {u : State} {x : Src8} (k : complete u = o) (h : Broken f s)
    (hu : u.hostFault = (operand8 x s).2.hostFault) : o = .fault f := complete_broken k ((h.operand8 x).update hu)

theorem store8_broken {g : State → Byte} {m : MemOp} (k : store8 g m s = o) (h : Broken f s) : o = .fault f := by
  refine complete_broken k (Broken.writeCycle ?_ _ _)
  exact (h.ea m).update rfl

theorem arithD_broken {op : Byte → Word → Word → Word × Byte} {x : Src16} (k : arithD op x s = o)
    (h : Broken f s) : o = .fault f := by
  refine complete_broken k (Broken.filler ?_)
  exact (h.operand16 x).update rfl

theorem compare16_broken {g : State → Word} {x : Src16} (k : compare16 g x s = o) (h : Broken f s) :
    o = .fault f := by
  refine complete_broken k (Broken.filler ?_)
  exact (h.operand16 x).update rfl

theorem load16_broken {g : Word → State → State} {x : Src16} (k : load16 g x s = o) (h : Broken f s)
    (hg : ∀ v u, (g v u).hostFault = u.hostFault) : o = .fault f := by
  refine complete_broken k (Broken.update ?_ (hg _ _))
  exact (h.operand16 x).update rfl

theorem store16_broken {g : State → Word} {m : MemOp} (k : store16 g m s = o) (h : Broken f s) : o = .fault f := by
  refine complete_broken k (Broken.writeWord ?_ _ _)
  exact (h.ea m).update rfl

theorem storeImm_broken {g : State → Word} (k : storeImm g s = o) (h : Broken f s) : o = .fault f := by
  unfold storeImm at k
  split at k
  · exact refuse_broken k h
  · refine complete_broken k ⟨?_⟩
    dsimp only
    refine Broken.fault (Broken.writeCycle ?_ _ _)
    exact (h.dummy s.pc).update rfl

theorem lea_broken {g : Word → State → State} {x : Indexed} (k : lea g x s = o) (h : Broken f s)
    (hg : ∀ v u, (g v u).hostFault = u.hostFault) : o = .fault f :=
  complete_broken k ((h.eaIndexed x).update (hg _ _)).filler

theorem shortBranch_broken {c : Cond} {off : Byte} (k : shortBranch c off s = o) (h : Broken f s) :
    o = .fault f := by
  unfold shortBranch at k
  dsimp only at k
  split at k
  · exact complete_broken k (h.filler.update rfl)
  · exact complete_broken k h.filler

theorem longBranch_broken {c : Cond} {off : Word} (k : longBranch c off s = o) (h : Broken f s) :
    o = .fault f := by
  unfold longBranch at k
  dsimp only at k
  split at k
  · exact complete_broken k (h.filler.filler.update rfl)
  · exact complete_broken k h.filler

theorem callTarget_broken {w : Word} (k : callTarget w s = o) (h : Broken f s) : o = .fault f :=
  complete_broken k (((h.dummy w).filler.push16 .s _).update rfl)

theorem softwareInterrupt_broken {v : Word} {m : Byte} (k : softwareInterrupt v m s = o) (h : Broken f s) :
    o = .fault f := complete_broken k ((h.dummy _).filler.stackEntire.enterVector v m)

theorem returnFromInterrupt_broken (k : returnFromInterrupt s = o) (h : Broken f s) : o = .fault f := by
  refine complete_broken k (Broken.filler (Broken.pullList ?_ _ _))
  exact ((h.dummy _).pull8 .s).update rfl

theorem execTfr_broken {r1 r2 : TReg} (k : execTfr r1 r2 s = o) (h : Broken f s) : o = .fault f := by
  unfold execTfr at k
  split at k
  · exact refuse_broken k h
  · exact complete_broken k ((h.fillers 4).tregWrite _ _)

theorem execExg_broken {r1 r2 : TReg} (k : execExg r1 r2 s = o) (h : Broken f s) : o = .fault f := by
  unfold execExg at k
  split at k
  · exact refuse_broken k h
  · exact complete_broken k (((h.fillers 6).tregWrite _ _).tregWrite _ _)

theorem execAndccDup_broken {v : Byte} (k : execAndccDup v s = o) (h : Broken f s) : o = .fault f := by
  unfold execAndccDup at k
  split at k
  · exact refuse_broken k h
  · refine complete_broken k (Broken.fillers ?_ 2)
    exact h.update rfl

theorem execCwai_broken {v : Byte} (k : execCwai v s = o) (h : Broken f s) : o = .fault f := by
  have masked : Broken f { s with cc := (s.cc &&& v) ||| ccE } := h.update rfl
  exact settle_broken k (((masked.dummy s.pc).filler.pushList .s 0xFF#8).update rfl)

theorem undefinedByte_broken (k : undefinedByte s = o) (h : Broken f s) : o = .fault f := by
  unfold undefinedByte at k
  split at k
  · exact settle_broken k (h.update rfl)
  · exact refuse_broken k h

end shapes

/-- Every instruction, whatever else the host does, ends in the precondition already broken. -/
theorem exec_broken {i : Instr} {o : Out} (k : exec i s = o) (h : Broken f s) : o = .fault f := by
  cases i <;> dsimp only [exec] at k
  case neg | negDup | negcom | com | lsr | lsrDup | ror | asr | asl | rol | dec | decDup | inc | clr =>
    exact rmwMem_broken k h
  case tst => exact tstMem_broken k h
  case nega | negaDup | negcoma | coma | lsra | lsraDup | rora | asra | asla | rola | deca | decaDup | inca | clra |
      clraDup | tsta | negb | negbDup | negcomb | comb | lsrb | lsrbDup | rorb | asrb | aslb | rolb | decb | decbDup |
      incb | clrb | clrbDup | tstb | sex | daa | nop | nopDup =>
    exact inherent_broken k h rfl
  case suba | sbca | anda | lda | eora | ora | adda | adca | cmpa | bita | subb | sbcb | andb | ldb | eorb | orb |
      addb | adcb | cmpb | bitb =>
    exact src8_broken k h rfl
  case sta | stb => exact store8_broken k h
  case discard => exact complete_broken k (h.update rfl)
  case addd | subd => exact arithD_broken k h
  case cmpd | cmpx | cmpy | cmpu | cmps => exact compare16_broken k h
  case ldd | ldx | ldy | ldu | lds => exact load16_broken k h fun _ _ => rfl
  case std | stx | sty | stu | sts => exact store16_broken k h
  case stxImm | stuImm => exact storeImm_broken k h
  case leax | leay | leas | leau => exact lea_broken k h fun _ _ => rfl
  case abx | ccshift =>
    refine complete_broken k (Broken.filler ?_)
    exact (h.dummy s.pc).update rfl
  case mul =>
    refine complete_broken k (Broken.fillers ?_ 9)
    exact (h.dummy s.pc).update rfl
  case tfr => exact execTfr_broken k h
  case exg => exact execExg_broken k h
  case pshs | pshu => exact complete_broken k ((h.fillers 3).pushList _ _)
  case puls | pulu => exact complete_broken k ((h.fillers 2).pullList _ _).filler
  case andcc | orcc =>
    refine complete_broken k (Broken.filler ?_)
    exact h.update rfl
  case andccDup => exact execAndccDup_broken k h
  case bra | brn | bhi | bls | bcc | bcs | bne | beq | bvc | bvs | bpl | bmi | bge | blt | bgt | ble =>
    exact shortBranch_broken k h
  case lbrn | lbhi | lbls | lbcc | lbcs | lbne | lbeq | lbvc | lbvs | lbpl | lbmi | lbge | lblt | lbgt | lble =>
    exact longBranch_broken k h
  case lbra => exact complete_broken k ((h.fillers 2).update rfl)
  case lbsr => exact callTarget_broken k (h.fillers 2)
  case bsr => exact callTarget_broken k h.filler
  case jsr m => exact callTarget_broken k (h.ea m)
  case jmp m => exact complete_broken k ((h.ea m).update rfl)
  case rts =>
    refine complete_broken k (Broken.filler ?_)
    exact ((h.dummy s.pc).pull16 .s).update rfl
  case swi | swi2 | swi3 | resetIll => exact softwareInterrupt_broken k h
  case rti => exact returnFromInterrupt_broken k h
  case cwai => exact execCwai_broken k h
  case sync => exact settle_broken k ((h.dummy s.pc).filler.update rfl)
  case hcf | page2Prefix | page3Prefix => exact settle_broken k (h.update rfl)
  case page2Undefined | page3Undefined => exact undefinedByte_broken k h

/-! ### The first callout of a step breaks it -/

/-- The host has broken no precondition yet, and the first move it makes in the coming callout breaks `f`. -/
structure AboutToBreak (f : Fault) (s : State) : Prop where
  fault : s.hostFault = none
  script : ∃ m more rest, s.script = (m :: more) :: rest ∧ ∀ u, innerMove u m = u.raise f

/-- R541, R542, R560: the three moves that no callout may make. -/
theorem innerMove_precondition {m : HostMove}
    (h : m = .run ∧ f = .reentrantRun ∨ (∃ pc, m = .jump pc) ∧ f = .jumpInsideStep ∨
      m = .reset ∧ f = .resetInsideStep) (u : State) : innerMove u m = u.raise f := by
  rcases h with ⟨rfl, rfl⟩ | ⟨⟨pc, rfl⟩, rfl⟩ | ⟨rfl, rfl⟩ <;> rfl

theorem AboutToBreak.update {t : State} (h : AboutToBreak f s) (hf : t.hostFault = s.hostFault)
    (hs : t.script = s.script) : AboutToBreak f t := ⟨hf.trans h.fault, hs ▸ h.script⟩

theorem AboutToBreak.callout (h : AboutToBreak f s) : Broken f (callout s) := by
  obtain ⟨m, more, rest, hscript, hm⟩ := h.script
  simp only [Machine.callout, hscript, List.foldl_cons, hm]
  refine Broken.foldl ⟨?_⟩ more
  simp [State.raise, h.fault]

theorem AboutToBreak.readCycle (h : AboutToBreak f s) (a : Word) : Broken f (readCycle a s).2 := h.callout.update rfl

theorem AboutToBreak.filler (h : AboutToBreak f s) : Broken f (filler s) := h.readCycle _

theorem AboutToBreak.fetchByte (h : AboutToBreak f s) : Broken f (fetchByte s).2 := (h.readCycle s.pc).update rfl

theorem AboutToBreak.fetchInstr (h : AboutToBreak f s) (pg : Page) : Broken f (fetchInstr pg s).2 := by
  refine Broken.fetchRest ?_ _
  exact h.fetchByte.update rfl

theorem AboutToBreak.enterVector (h : AboutToBreak f s) (v : Word) (m : Byte) : Broken f (enterVector v m s) :=
  enterVector_broken (fun _ hf hs => (h.update hf hs).filler) v m

/-- The fetch of an instruction: executed, rejected, or refused at its opcode. -/
theorem runInstruction_aboutToBreak {pg : Page} {o : Out} (k : runInstruction pg s = o) (h : AboutToBreak f s) :
    o = .fault f := by
  unfold runInstruction at k
  split at k
  · exact refuse_broken k h.fetchByte
  · split at k
    · exact exec_broken k (h.fetchInstr pg)
    · unfold reject at k
      split at k <;> exact refuse_broken k (h.fetchInstr pg)

theorem AboutToBreak.stepResetCheckHalt (h : AboutToBreak f s) : Broken f (stepResetCheckHalt s) := by
  unfold Machine.stepResetCheckHalt
  split
  · exact h.filler
  · refine Broken.update (Broken.filler ?_) (goto_hostFault .labelA _)
    exact ⟨(h.filler.readWord Config.vecReset).fault⟩

theorem AboutToBreak.stepLabelB (h : AboutToBreak f s) (hl : s.select ≠ none) : Broken f (stepLabelB s) := by
  obtain ⟨l, hl⟩ := Option.ne_none_iff_exists'.mp hl
  simp only [Machine.stepLabelB, hl]
  exact ⟨(Broken.dummy (h.readCycle s.pc) s.pc).fault⟩

theorem stepDispatchIrq_aboutToBreak {o : Out} (k : stepDispatchIrq s = o) (h : AboutToBreak f s)
    (hl : (if s.viaCwai then s.select else s.irqSel) ≠ none) : o = .fault f := by
  unfold stepDispatchIrq at k
  split at k
  · next hv =>
    rw [if_pos hv] at hl
    split at k
    · next hnone => exact absurd hnone hl
    · exact settle_broken k (h.enterVector _ _)
  · next hv =>
    rw [if_neg hv] at hl
    split at k
    · next hnone => exact absurd hnone hl
    · exact settle_broken k ((h.filler.stackFrame _).enterVector _ _)

theorem AboutToBreak.stepCwaiCheckHalt (h : AboutToBreak f s) : Broken f (stepCwaiCheckHalt s) := by
  unfold Machine.stepCwaiCheckHalt
  dsimp only
  split
  · exact h.filler
  · exact ⟨h.filler.fault⟩

end broken

/-- Settles O58: the first callout of each of these steps breaks the precondition, and every end of a step is in it. -/
theorem calloutPreconditions : Obligations.CalloutPreconditions := by
  intro m f more rest s hm hfault hscript hphase
  have h : AboutToBreak f s := ⟨hfault, m, more, rest, hscript, innerMove_precondition hm⟩
  generalize k : step s = o
  simp only [List.mem_cons, List.not_mem_nil, or_false] at hphase
  rcases hphase with (hp | hp | hp | hp | hp | hp | hp) | ⟨hp | hp, hhalt⟩ | ⟨hp, hl⟩ | ⟨hp, hl⟩ <;>
    simp only [step, hp] at k
  · exact settle_broken k h.stepResetCheckHalt
  · exact runInstruction_aboutToBreak k (h.update rfl rfl)
  · exact runInstruction_aboutToBreak k h
  · exact runInstruction_aboutToBreak k h
  · exact settle_broken k (h.filler.update rfl)
  · exact settle_broken k h.stepCwaiCheckHalt
  · exact settle_broken k h.filler
  · rw [stepLabelA, if_pos hhalt] at k
    exact settle_broken k h.filler
  · rw [stepSyncCheckHalt, if_pos hhalt] at k
    exact settle_broken k h.filler
  · exact settle_broken k (h.stepLabelB hl)
  · exact stepDispatchIrq_aboutToBreak k h hl

end Sys2Proof.Machine
end

section
/-! SUPPORT. The statements about reset (spec 70_reset_and_hazards.md R600 to R602). -/

namespace Sys2Proof.Machine

/-! ### The host's `reset()` and `jump` (R600, R542) -/

/-- R600: I and F are set in CC after reset. -/
theorem resetCc_masks : getCc .i Config.resetCc = true ∧ getCc .f Config.resetCc = true := by decide

theorem hostMove_jump {s : State} (pc : Word) (h : s.hostFault = none) :
    hostMove (.jump pc) s = .next { s with pc := pc } :=
  settle_quiet (s := hostJump pc s) h

/-! ### From RESET to LABEL_A (R601, R602) -/

/-- R602 without halt, under a host that does not interfere. -/
theorem stepResetCheckHalt_quiet {s : State} (h : s.script = []) (hhalt : s.halt = false) :
    stepResetCheckHalt s = { s.after [s.fill, s.look 0xFFFE#16, s.look 0xFFFF#16, s.fill] with
      pc := joinBytes (s.byteAt 0xFFFE#16) (s.byteAt 0xFFFF#16), phase := .labelA } := by
  simp [stepResetCheckHalt, hhalt, filler_quiet, readWord_quiet, h, Config.vecReset, State.goto, State.after,
    State.look, State.fill, State.byteAt, State.wordAt, BitVec.add_assoc]

/-- Settles O7: RESET makes no bus cycle, and what it writes RESET_CHECK_HALT does not read. -/
theorem resetSequence : Obligations.ResetSequence := by
  rintro s ⟨hscript, hfault⟩ hp hhalt
  refine ⟨_, _, ?_, rfl, ?_, rfl⟩
  · simp only [step, hp]
    exact settle_quiet (s := stepReset s) hfault
  · have hvector := stepResetCheckHalt_quiet (s := stepReset s) hscript hhalt
    exact (congrArg settle hvector).trans (settle_quiet hfault)

end Sys2Proof.Machine

namespace Sys2Proof

open Machine

/-- Settles O6: the masks are those of the reset CC, and `reset()` writes no other field the statement names. -/
theorem hostReset : Obligations.HostReset := by
  intro s
  obtain ⟨hi, hf⟩ := resetCc_masks
  exact ⟨rfl, rfl, hi, hf, rfl, rfl, rfl, rfl, rfl, rfl, rfl, rfl, rfl, rfl, rfl, rfl, rfl, rfl, hostMove_jump⟩

end Sys2Proof
end

section
/-! SUPPORT. The statements about the round trip of decoder and encoder (spec 30_encoding.md sections 2 to 5). -/

namespace Sys2Proof

/-! ### Decoding the bytes of an operand -/

section
variable {pg : Page} {op : Byte}

/-- The two bytes of a word operand are read as the word. -/
theorem decode_word {f : Word → Instr} (hs : shapeOf pg op = .word f) (w : Word) (rest : List Byte) :
    decode pg (op :: hiByte w :: loByte w :: rest) = .ok (f w, rest) := by
  simp [decode, hs, decodeShape]

/-- R140: the two codes of a register postbyte are read as the two registers. -/
theorem decode_pair {f : TReg → TReg → Instr} (hs : shapeOf pg op = pair f) (r1 r2 : TReg) (rest : List Byte) :
    decode pg (op :: (r1.code ++ r2.code) :: rest) = .ok (f r1 r2, rest) := by
  have hfirst : (r1.code ++ r2.code).extractLsb' 4 4 = r1.code := BitVec.extractLsb'_append_eq_left
  have hsecond : (r1.code ++ r2.code).extractLsb' 0 4 = r2.code := BitVec.extractLsb'_append_eq_right
  simp [decode, hs, pair, decodeShape, hfirst, hsecond]

/-- The postbyte and offset bytes of a well-formed indexed operand are read as the operand. -/
theorem decode_indexed {f : Indexed → Instr} (hs : shapeOf pg op = .indexed f) {x : Indexed} (h : x.wf = true)
    (rest : List Byte) : decode pg (op :: encIndexed x ++ rest) = .ok (f x, rest) := by
  simp [decode, hs, decodeShape, decodeIndexed_encIndexed x h]

/-- A memory operand is read back where its three opcodes name the three modes of one instruction. -/
theorem decode_encMem {d x e : Byte} {f : MemOp → Instr} (hd : shapeOf pg d = dir f) (hx : shapeOf pg x = idx f)
    (he : shapeOf pg e = ext f) (m : MemOp) (h : m.wf = true) (rest : List Byte) :
    decode pg (encMem d x e m ++ rest) = .ok (f m, rest) := by
  cases m with
  | direct off => simp [encMem, decode, hd, dir, decodeShape]
  | indexed i => exact decode_indexed hx h rest
  | extended a => exact decode_word he a rest

theorem decode_encSrc8 {i d x e : Byte} {f : Src8 → Instr} (hi : shapeOf pg i = imm8 f)
    (hd : shapeOf pg d = dir (src8 f)) (hx : shapeOf pg x = idx (src8 f)) (he : shapeOf pg e = ext (src8 f)) (o : Src8)
    (h : o.wf = true) (rest : List Byte) : decode pg (encSrc8 i d x e o ++ rest) = .ok (f o, rest) := by
  cases o with
  | imm v => simp [encSrc8, decode, hi, imm8, decodeShape]
  | mem m => exact decode_encMem hd hx he m h rest

theorem decode_encSrc16 {i d x e : Byte} {f : Src16 → Instr} (hi : shapeOf pg i = imm16 f)
    (hd : shapeOf pg d = dir (src16 f)) (hx : shapeOf pg x = idx (src16 f)) (he : shapeOf pg e = ext (src16 f))
    (o : Src16) (h : o.wf = true) (rest : List Byte) : decode pg (encSrc16 i d x e o ++ rest) = .ok (f o, rest) := by
  cases o with
  | imm v => exact decode_word hi v rest
  | mem m => exact decode_encMem hd hx he m h rest

end

/-! ### The undefined bytes of pages 2 and 3 (R408) -/

/-- A byte outside a list that holds every key of a page's rows has no shape there. -/
theorem lookupShape_eq_none {op : Byte} {keys : List Byte} (hop : keys.contains op = false)
    (rows : List (Byte × Shape)) (h : (rows.all fun r => keys.contains r.1) = true) : lookupShape op rows = none := by
  induction rows with
  | nil => rfl
  | cons r rows ih =>
    obtain ⟨hb, hrows⟩ : keys.contains r.1 = true ∧ (rows.all fun r => keys.contains r.1) = true := by
      simpa only [List.all_cons, Bool.and_eq_true] using h
    have hne : op ≠ r.1 := ne_of_apply_ne keys.contains (by rw [hop, hb]; decide)
    rw [lookupShape, if_neg hne, ih hrows]

/-- R114: what the page-2 rows define is what well-formedness excludes. -/
theorem shapeOf_page2_undefined {b : Byte} (h : (Instr.page2Undefined b).wf = true) :
    shapeOf .page2 b = .inh (.page2Undefined b) := by
  have hb : definedPage2.contains b = false := by simpa only [Instr.wf, Bool.not_eq_true'] using h
  simp only [shapeOf, lookupShape_eq_none hb page2Rows (by decide), Option.getD_none]

/-- R115: the same of page 3. -/
theorem shapeOf_page3_undefined {b : Byte} (h : (Instr.page3Undefined b).wf = true) :
    shapeOf .page3 b = .inh (.page3Undefined b) := by
  have hb : definedPage3.contains b = false := by simpa only [Instr.wf, Bool.not_eq_true'] using h
  simp only [shapeOf, lookupShape_eq_none hb page3Rows (by decide), Option.getD_none]

/-! ### The round trip -/

/-- Settles O2, by the operand of the instruction; an instruction without one, or with one operand byte, is read back
by evaluating its row of the opcode map. -/
theorem decodeOfEncode : Obligations.DecodeOfEncode := by
  intro i rest h
  cases i with
  | neg m | negDup m | negcom m | com m | lsr m | lsrDup m | ror m | asr m | asl m | rol m | dec m | decDup m | inc m
  | tst m | clr m | sta m | stb m | std m | stx m | sty m | stu m | sts m | jmp m | jsr m =>
    exact decode_encMem rfl rfl rfl m h rest
  | suba o | subb o | cmpa o | cmpb o | sbca o | sbcb o | anda o | andb o | bita o | bitb o | lda o | ldb o | eora o
  | eorb o | adca o | adcb o | ora o | orb o | adda o | addb o =>
    exact decode_encSrc8 rfl rfl rfl rfl o h rest
  | addd o | subd o | cmpd o | cmpx o | cmpy o | cmpu o | cmps o | ldd o | ldx o | ldy o | ldu o | lds o =>
    exact decode_encSrc16 rfl rfl rfl rfl o h rest
  | leax x | leay x | leas x | leau x => exact decode_indexed rfl h rest
  | tfr r1 r2 | exg r1 r2 => exact decode_pair rfl r1 r2 rest
  | lbra off | lbsr off | lbrn off | lbhi off | lbls off | lbcc off | lbcs off | lbne off | lbeq off | lbvc off
  | lbvs off | lbpl off | lbmi off | lbge off | lblt off | lbgt off | lble off => exact decode_word rfl off rest
  | discard op v => cases op <;> rfl
  | hcf op => cases op <;> rfl
  | page2Undefined b => exact congrArg (decodeShape · rest) (shapeOf_page2_undefined h)
  | page3Undefined b => exact congrArg (decodeShape · rest) (shapeOf_page3_undefined h)
  | _ => rfl

/-- What a faithful shape answers is well-formed, stands on the page, and is encoded by the opcode byte and the bytes
consumed. -/
theorem Shape.Faithful.decodeShape_ok {pg : Page} {op : Byte} {sh : Shape} (hf : sh.Faithful pg op)
    {bs rest : List Byte} {i : Instr} (h : decodeShape sh bs = .ok (i, rest)) :
    i.wf = true ∧ i.page = pg ∧ encodeOp i ++ rest = op :: bs := by
  cases sh with
  | inh j =>
    obtain ⟨hwf, hpage, henc⟩ := hf
    cases h
    exact ⟨hwf, hpage, by rw [henc]; rfl⟩
  | byte f | post f =>
    match bs, h with
    | b :: bs, h =>
      obtain ⟨hwf, hpage, henc⟩ := hf b
      cases h
      exact ⟨hwf, hpage, by rw [henc]; rfl⟩
  | word f =>
    match bs, h with
    | hi :: lo :: bs, h =>
      obtain ⟨hwf, hpage, henc⟩ := hf (joinBytes hi lo)
      cases h
      exact ⟨hwf, hpage, by rw [henc, hiByte_joinBytes, loByte_joinBytes]; rfl⟩
  | indexed f =>
    cases hx : decodeIndexed bs with
    | error e => simp [decodeShape, hx] at h
    | ok r =>
      obtain ⟨x, rest'⟩ := r
      obtain ⟨rfl, rfl⟩ : f x = i ∧ rest' = rest := by simpa [decodeShape, hx] using h
      obtain ⟨hwf, hpage, henc⟩ := hf x
      obtain ⟨hxwf, hxenc⟩ := encIndexed_decodeIndexed hx
      exact ⟨hwf.trans hxwf, hpage, by rw [henc, List.cons_append, hxenc]⟩

/-- Settles O3: every shape of the opcode maps is faithful. -/
theorem encodeOfDecode : Obligations.EncodeOfDecode := by
  intro pg bs rest i h
  cases bs with
  | nil => cases h
  | cons op bs => exact (shapeOf_faithful pg op).decodeShape_ok h

end Sys2Proof
end
